-- ==== Sys2Proof/Word.lean ====
section
/-! DEFINITION. The data widths of the DCJ11 (spec 00_scope R7): an 8-bit byte, a 16-bit word, a 22-bit physical address. -/

namespace Sys2Proof

/-- A byte (R7). -/
abbrev Byte := BitVec 8

/-- A 16-bit word; also a virtual address (R7). -/
abbrev Word := BitVec 16

/-- A 22-bit physical address (R100). -/
abbrev PAddr := BitVec 22

end Sys2Proof
end

