-- ==== Sys2Proof/Syntax.lean ====
section
/-! DEFINITION. The instructions: one constructor for each mnemonic of spec/opcode_table.json (30_encoding R219, 45 R510).
Index words, immediates and absolute addresses are not part of an `Instr`: the machine fetches them through the PC while
it evaluates the operand (40_addressing R252, R258). -/

namespace Sys2Proof

/-- The eight general registers an instruction names (10_state R21). -/
inductive Reg where
  | r0 | r1 | r2 | r3 | r4 | r5 | sp | pc
deriving DecidableEq, Repr

/-- The eight addressing modes (40_addressing R250). -/
inductive AddrMode where
  /-- 0, `Rn` -/
  | register
  /-- 1, `(Rn)` -/
  | deferred
  /-- 2, `(Rn)+` -/
  | autoInc
  /-- 3, `@(Rn)+` -/
  | autoIncDeferred
  /-- 4, `-(Rn)` -/
  | autoDec
  /-- 5, `@-(Rn)` -/
  | autoDecDeferred
  /-- 6, `X(Rn)` -/
  | index
  /-- 7, `@X(Rn)` -/
  | indexDeferred
deriving DecidableEq, Repr

/-- A 6-bit operand field: mode in bits 5:3, register in bits 2:0 (30_encoding R214). -/
structure Operand where
  mode : AddrMode
  reg : Reg
deriving DecidableEq, Repr

/-- The accumulators a 2-bit AC field names (45 R512). -/
inductive AcField where
  | ac0 | ac1 | ac2 | ac3
deriving DecidableEq, Repr

/-- The instructions. `dst`, `src` are 6-bit operand fields, `r` a register field, `ac` an accumulator field. The F and D
(I and L) spellings of one code word are separate constructors: the FPS picks between them (45 R500). -/
inductive Instr where
  -- operate group (R211)
  | halt
  | wait
  | rti
  | bpt
  | iot
  | reset
  | rtt
  | mfpt
  /-- a reserved code of R220, whole word kept -/
  | reserved (code : Word)
  -- condition-code operators (R212): the unnamed combinations, then the named codes
  /-- `sense` is bit 4 (set or clear), `mask` bits 3:0 -/
  | ccop (sense : Bool) (mask : BitVec 4)
  | nop
  | clc
  | clv
  | clz
  | cln
  | ccc
  | sec
  | sev
  | sez
  | sen
  | scc
  -- jumps, subroutines, program control
  | jmp (dst : Operand)
  | jsr (r : Reg) (dst : Operand)
  | rts (r : Reg)
  | spl (level : BitVec 3)
  | mark (count : BitVec 6)
  | sob (r : Reg) (offset : BitVec 6)
  | emt (code : BitVec 8)
  | trap (code : BitVec 8)
  -- branches (R206); `bhis` and `blo` are second names of `bcc` and `bcs` (R223)
  | br (offset : BitVec 8)
  | bne (offset : BitVec 8)
  | beq (offset : BitVec 8)
  | bge (offset : BitVec 8)
  | blt (offset : BitVec 8)
  | bgt (offset : BitVec 8)
  | ble (offset : BitVec 8)
  | bpl (offset : BitVec 8)
  | bmi (offset : BitVec 8)
  | bhi (offset : BitVec 8)
  | blos (offset : BitVec 8)
  | bvc (offset : BitVec 8)
  | bvs (offset : BitVec 8)
  | bcc (offset : BitVec 8)
  | bcs (offset : BitVec 8)
  | bhis (offset : BitVec 8)
  | blo (offset : BitVec 8)
  -- single operand (R203)
  | swab (dst : Operand)
  | clr (dst : Operand)
  | com (dst : Operand)
  | inc (dst : Operand)
  | dec (dst : Operand)
  | neg (dst : Operand)
  | adc (dst : Operand)
  | sbc (dst : Operand)
  | tst (dst : Operand)
  | ror (dst : Operand)
  | rol (dst : Operand)
  | asr (dst : Operand)
  | asl (dst : Operand)
  | mfpi (src : Operand)
  | mtpi (dst : Operand)
  | sxt (dst : Operand)
  | csm (src : Operand)
  | tstset (dst : Operand)
  | wrtlck (dst : Operand)
  | clrb (dst : Operand)
  | comb (dst : Operand)
  | incb (dst : Operand)
  | decb (dst : Operand)
  | negb (dst : Operand)
  | adcb (dst : Operand)
  | sbcb (dst : Operand)
  | tstb (dst : Operand)
  | rorb (dst : Operand)
  | rolb (dst : Operand)
  | asrb (dst : Operand)
  | aslb (dst : Operand)
  | mtps (src : Operand)
  | mfpd (src : Operand)
  | mtpd (dst : Operand)
  | mfps (dst : Operand)
  -- double operand (R204, R205)
  | mov (src dst : Operand)
  | cmp (src dst : Operand)
  | bit (src dst : Operand)
  | bic (src dst : Operand)
  | bis (src dst : Operand)
  | add (src dst : Operand)
  | movb (src dst : Operand)
  | cmpb (src dst : Operand)
  | bitb (src dst : Operand)
  | bicb (src dst : Operand)
  | bisb (src dst : Operand)
  | sub (src dst : Operand)
  | mul (r : Reg) (src : Operand)
  | div (r : Reg) (src : Operand)
  | ash (r : Reg) (src : Operand)
  | ashc (r : Reg) (src : Operand)
  | xor (r : Reg) (dst : Operand)
  -- floating point (45 R510)
  | cfcc
  | setf
  | seti
  | setd
  | setl
  /-- a floating code that is no instruction (45 R511), whole word kept -/
  | illegalFloat (code : Word)
  | ldfps (src : Operand)
  | stfps (dst : Operand)
  | stst (dst : Operand)
  | clrf (fdst : Operand)
  | clrd (fdst : Operand)
  | tstf (fdst : Operand)
  | tstd (fdst : Operand)
  | absf (fdst : Operand)
  | absd (fdst : Operand)
  | negf (fdst : Operand)
  | negd (fdst : Operand)
  | mulf (ac : AcField) (fsrc : Operand)
  | muld (ac : AcField) (fsrc : Operand)
  | modf (ac : AcField) (fsrc : Operand)
  | modd (ac : AcField) (fsrc : Operand)
  | addf (ac : AcField) (fsrc : Operand)
  | addd (ac : AcField) (fsrc : Operand)
  | ldf (ac : AcField) (fsrc : Operand)
  | ldd (ac : AcField) (fsrc : Operand)
  | subf (ac : AcField) (fsrc : Operand)
  | subd (ac : AcField) (fsrc : Operand)
  | cmpf (ac : AcField) (fsrc : Operand)
  | cmpd (ac : AcField) (fsrc : Operand)
  | stf (ac : AcField) (fdst : Operand)
  | std (ac : AcField) (fdst : Operand)
  | divf (ac : AcField) (fsrc : Operand)
  | divd (ac : AcField) (fsrc : Operand)
  | stexp (ac : AcField) (dst : Operand)
  | stcfi (ac : AcField) (dst : Operand)
  | stcfl (ac : AcField) (dst : Operand)
  | stcdi (ac : AcField) (dst : Operand)
  | stcdl (ac : AcField) (dst : Operand)
  | stcfd (ac : AcField) (fdst : Operand)
  | stcdf (ac : AcField) (fdst : Operand)
  | ldexp (ac : AcField) (src : Operand)
  | ldcif (ac : AcField) (src : Operand)
  | ldclf (ac : AcField) (src : Operand)
  | ldcid (ac : AcField) (src : Operand)
  | ldcld (ac : AcField) (src : Operand)
  | ldcdf (ac : AcField) (fsrc : Operand)
  | ldcfd (ac : AcField) (fsrc : Operand)
deriving DecidableEq, Repr

end Sys2Proof
end

