-- ==== Sys2Proof/WellFormed.lean ====
section
/-! DEFINITION. Which terms of `Instr` stand for an instruction word, and the FPS condition under which a floating
word has that name (30_encoding R219, R220, R223; 45 R510, R511; the "condition" column of spec/opcode_table.json). -/

namespace Sys2Proof

/-- The reserved codes of the base instruction set (R220). -/
def reservedCode (w : Word) : Bool :=
  (0o000010 ≤ w.toNat && w.toNat ≤ 0o000077) || (0o000210 ≤ w.toNat && w.toNat ≤ 0o000227) ||
  (0o007100 ≤ w.toNat && w.toNat ≤ 0o007177) || (0o007400 ≤ w.toNat && w.toNat ≤ 0o007777) ||
  (0o075000 ≤ w.toNat && w.toNat ≤ 0o076777) || (0o107000 ≤ w.toNat && w.toNat ≤ 0o107777)

/-- The floating codes that are no instruction (45 R511). -/
def illegalFloatCode (w : Word) : Bool :=
  (0o170003 ≤ w.toNat && w.toNat ≤ 0o170010) || (0o170013 ≤ w.toNat && w.toNat ≤ 0o170077)

/-- The condition-code operators that have a name of their own (R480): `0o240`, and one bit or all bits in either sense. -/
def namedCcop (sense : Bool) (mask : BitVec 4) : Bool :=
  mask == 1#4 || mask == 2#4 || mask == 4#4 || mask == 8#4 || mask == 15#4 || (!sense && mask == 0#4)

/-- An instruction the decoder can give: a reserved or illegal code lies in its range, an unnamed condition-code operator
has no name, and the second names BHIS and BLO are spelt BCC and BCS (R223; log entry 29). -/
def Instr.wf : Instr → Bool
  | .reserved code => reservedCode code
  | .illegalFloat code => illegalFloatCode code
  | .ccop sense mask => !namedCcop sense mask
  | .bhis _ => false
  | .blo _ => false
  | _ => true

/-- Whether FPS bits FD and FL give the code word this name (the table's "condition"; 45 R500). True of every instruction
whose row has no condition. -/
def Instr.fits (fd fl : Bool) : Instr → Bool
  | .clrf _ | .tstf _ | .absf _ | .negf _ => !fd
  | .clrd _ | .tstd _ | .absd _ | .negd _ => fd
  | .mulf _ _ | .modf _ _ | .addf _ _ | .ldf _ _ | .subf _ _ | .cmpf _ _ | .stf _ _ | .divf _ _ => !fd
  | .muld _ _ | .modd _ _ | .addd _ _ | .ldd _ _ | .subd _ _ | .cmpd _ _ | .std _ _ | .divd _ _ => fd
  | .stcfd _ _ | .ldcdf _ _ => !fd
  | .stcdf _ _ | .ldcfd _ _ => fd
  | .stcfi _ _ | .ldcif _ _ => !fd && !fl
  | .stcfl _ _ | .ldclf _ _ => !fd && fl
  | .stcdi _ _ | .ldcid _ _ => fd && !fl
  | .stcdl _ _ | .ldcld _ _ => fd && fl
  | _ => true

end Sys2Proof
end

