-- ==== Sys2Proof/Decode.lean ====
section
/-! DEFINITION. The decoder: total on words, by the opcode map of 30_encoding R219 and 45 R510; and after it the encoder,
written from the same tables. -/

namespace Sys2Proof

/-- A 3-bit register field (R214). -/
def Reg.ofBits (b : BitVec 3) : Reg :=
  match b with
  | 0#3 => .r0 | 1#3 => .r1 | 2#3 => .r2 | 3#3 => .r3 | 4#3 => .r4 | 5#3 => .r5 | 6#3 => .sp | 7#3 => .pc

/-- A 3-bit mode field (R214). -/
def AddrMode.ofBits (b : BitVec 3) : AddrMode :=
  match b with
  | 0#3 => .register | 1#3 => .deferred | 2#3 => .autoInc | 3#3 => .autoIncDeferred
  | 4#3 => .autoDec | 5#3 => .autoDecDeferred | 6#3 => .index | 7#3 => .indexDeferred

/-- A 6-bit operand field: mode in bits 5:3, register in bits 2:0 (R214). -/
def Operand.ofBits (f : BitVec 6) : Operand :=
  ⟨AddrMode.ofBits (f.extractLsb' 3 3), Reg.ofBits (f.extractLsb' 0 3)⟩

/-- A 2-bit AC field (45 R510). -/
def AcField.ofBits (b : BitVec 2) : AcField :=
  match b with
  | 0#2 => .ac0 | 1#2 => .ac1 | 2#2 => .ac2 | 3#2 => .ac3

/-- Bits 5:0 of an instruction word as an operand field. -/
def dstField (w : Word) : Operand := Operand.ofBits (w.extractLsb' 0 6)

/-- Bits 11:6 of an instruction word as an operand field (R204). -/
def srcField (w : Word) : Operand := Operand.ofBits (w.extractLsb' 6 6)

/-- Bits 8:6 of an instruction word as a register (R205). -/
def regField (w : Word) : Reg := Reg.ofBits (w.extractLsb' 6 3)

/-- Bits 7:6 of a floating instruction word (45 R510). -/
def acField (w : Word) : AcField := AcField.ofBits (w.extractLsb' 6 2)

/-- The codes `0o000000` to `0o000077`, by bits 5:0 (R211, R220). -/
def decodeOperate (w : Word) : Instr :=
  match w.extractLsb' 0 6 with
  | 0o00#6 => .halt | 0o01#6 => .wait | 0o02#6 => .rti | 0o03#6 => .bpt
  | 0o04#6 => .iot | 0o05#6 => .reset | 0o06#6 => .rtt | 0o07#6 => .mfpt
  | _ => .reserved w

/-- The condition-code operators, by the sense (bit 4) and the mask (bits 3:0) (R212, R480). -/
def decodeCcop (sense : Bool) (mask : BitVec 4) : Instr :=
  match sense, mask with
  | false, 0o00#4 => .nop
  | false, 0o01#4 => .clc
  | false, 0o02#4 => .clv
  | false, 0o04#4 => .clz
  | false, 0o10#4 => .cln
  | false, 0o17#4 => .ccc
  | true, 0o01#4 => .sec
  | true, 0o02#4 => .sev
  | true, 0o04#4 => .sez
  | true, 0o10#4 => .sen
  | true, 0o17#4 => .scc
  | _, _ => .ccop sense mask

/-- The codes `0o000200` to `0o000277`, by bits 5:3 (R208, R210, R212, R220). -/
def decode0002 (w : Word) : Instr :=
  match w.extractLsb' 3 3 with
  | 0#3 => .rts (Reg.ofBits (w.extractLsb' 0 3))
  | 1#3 => .reserved w
  | 2#3 => .reserved w
  | 3#3 => .spl (w.extractLsb' 0 3)
  | _ => decodeCcop (w.getLsbD 4) (w.extractLsb' 0 4)

/-- The codes `0o000000` to `0o000377`, by bits 7:6. -/
def decode000 (w : Word) : Instr :=
  match w.extractLsb' 6 2 with
  | 0#2 => decodeOperate w
  | 1#2 => .jmp (dstField w)
  | 2#2 => decode0002 w
  | 3#2 => .swab (dstField w)

/-- The codes `0o005000` to `0o007777`, by bits 10:6 below the octal digit 5, 6 or 7 (R203, R210, R220). -/
def decodeSingle (w : Word) : Instr :=
  match w.extractLsb' 6 6 with
  | 0o50#6 => .clr (dstField w)
  | 0o51#6 => .com (dstField w)
  | 0o52#6 => .inc (dstField w)
  | 0o53#6 => .dec (dstField w)
  | 0o54#6 => .neg (dstField w)
  | 0o55#6 => .adc (dstField w)
  | 0o56#6 => .sbc (dstField w)
  | 0o57#6 => .tst (dstField w)
  | 0o60#6 => .ror (dstField w)
  | 0o61#6 => .rol (dstField w)
  | 0o62#6 => .asr (dstField w)
  | 0o63#6 => .asl (dstField w)
  | 0o64#6 => .mark (w.extractLsb' 0 6)
  | 0o65#6 => .mfpi (dstField w)
  | 0o66#6 => .mtpi (dstField w)
  | 0o67#6 => .sxt (dstField w)
  | 0o70#6 => .csm (dstField w)
  | 0o72#6 => .tstset (dstField w)
  | 0o73#6 => .wrtlck (dstField w)
  | _ => .reserved w

/-- The codes `0o105000` to `0o107777`, by bits 11:6 (R203, R220). -/
def decodeSingleByte (w : Word) : Instr :=
  match w.extractLsb' 6 6 with
  | 0o50#6 => .clrb (dstField w)
  | 0o51#6 => .comb (dstField w)
  | 0o52#6 => .incb (dstField w)
  | 0o53#6 => .decb (dstField w)
  | 0o54#6 => .negb (dstField w)
  | 0o55#6 => .adcb (dstField w)
  | 0o56#6 => .sbcb (dstField w)
  | 0o57#6 => .tstb (dstField w)
  | 0o60#6 => .rorb (dstField w)
  | 0o61#6 => .rolb (dstField w)
  | 0o62#6 => .asrb (dstField w)
  | 0o63#6 => .aslb (dstField w)
  | 0o64#6 => .mtps (dstField w)
  | 0o65#6 => .mfpd (dstField w)
  | 0o66#6 => .mtpd (dstField w)
  | 0o67#6 => .mfps (dstField w)
  | _ => .reserved w

/-- Bits 15:12 = 0: the first branches, JSR and the single-operand words, by bits 11:8 (R206). -/
def decodeGroup0 (w : Word) : Instr :=
  let offset := w.extractLsb' 0 8
  match w.extractLsb' 8 4 with
  | 0o00#4 => decode000 w
  | 0o01#4 => .br offset
  | 0o02#4 => .bne offset
  | 0o03#4 => .beq offset
  | 0o04#4 => .bge offset
  | 0o05#4 => .blt offset
  | 0o06#4 => .bgt offset
  | 0o07#4 => .ble offset
  | 0o10#4 => .jsr (regField w) (dstField w)
  | 0o11#4 => .jsr (regField w) (dstField w)
  | _ => decodeSingle w

/-- Bits 15:12 = `0b1000`: the other branches, EMT, TRAP and the single-operand byte instructions, by bits 11:8 (R206, R209). -/
def decodeGroup8 (w : Word) : Instr :=
  let offset := w.extractLsb' 0 8
  match w.extractLsb' 8 4 with
  | 0o00#4 => .bpl offset
  | 0o01#4 => .bmi offset
  | 0o02#4 => .bhi offset
  | 0o03#4 => .blos offset
  | 0o04#4 => .bvc offset
  | 0o05#4 => .bvs offset
  | 0o06#4 => .bcc offset
  | 0o07#4 => .bcs offset
  | 0o10#4 => .emt offset
  | 0o11#4 => .trap offset
  | _ => decodeSingleByte w

/-- Bits 15:12 = 7: MUL to SOB, by bits 11:9 (R205, R207, R220). -/
def decodeGroup7 (w : Word) : Instr :=
  match w.extractLsb' 9 3 with
  | 0#3 => .mul (regField w) (dstField w)
  | 1#3 => .div (regField w) (dstField w)
  | 2#3 => .ash (regField w) (dstField w)
  | 3#3 => .ashc (regField w) (dstField w)
  | 4#3 => .xor (regField w) (dstField w)
  | 7#3 => .sob (regField w) (w.extractLsb' 0 6)
  | _ => .reserved w

/-- Floating codes with bits 11:8 = 0, by bits 7:6 and, for the first 64, by bits 5:0 (45 R510, R511). -/
def decodeFloat0 (w : Word) : Instr :=
  match w.extractLsb' 6 2 with
  | 0#2 =>
    match w.extractLsb' 0 6 with
    | 0o00#6 => .cfcc
    | 0o01#6 => .setf
    | 0o02#6 => .seti
    | 0o11#6 => .setd
    | 0o12#6 => .setl
    | _ => .illegalFloat w
  | 1#2 => .ldfps (dstField w)
  | 2#2 => .stfps (dstField w)
  | 3#2 => .stst (dstField w)

/-- Floating codes with bits 11:8 = 1, by bits 7:6; FD picks the name (45 R510, R500). -/
def decodeFloat1 (fd : Bool) (w : Word) : Instr :=
  let f := dstField w
  match w.extractLsb' 6 2 with
  | 0#2 => bif fd then .clrd f else .clrf f
  | 1#2 => bif fd then .tstd f else .tstf f
  | 2#2 => bif fd then .absd f else .absf f
  | 3#2 => bif fd then .negd f else .negf f

/-- Bits 15:12 = `0b1111`: floating point, by bits 11:8; the FPS bits FD and FL pick the name where one word has two or
four (45 R510, R500). -/
def decodeFloat (fd fl : Bool) (w : Word) : Instr :=
  let ac := acField w
  let f := dstField w
  match w.extractLsb' 8 4 with
  | 0o00#4 => decodeFloat0 w
  | 0o01#4 => decodeFloat1 fd w
  | 0o02#4 => bif fd then .muld ac f else .mulf ac f
  | 0o03#4 => bif fd then .modd ac f else .modf ac f
  | 0o04#4 => bif fd then .addd ac f else .addf ac f
  | 0o05#4 => bif fd then .ldd ac f else .ldf ac f
  | 0o06#4 => bif fd then .subd ac f else .subf ac f
  | 0o07#4 => bif fd then .cmpd ac f else .cmpf ac f
  | 0o10#4 => bif fd then .std ac f else .stf ac f
  | 0o11#4 => bif fd then .divd ac f else .divf ac f
  | 0o12#4 => .stexp ac f
  | 0o13#4 => bif fd then (bif fl then .stcdl ac f else .stcdi ac f) else (bif fl then .stcfl ac f else .stcfi ac f)
  | 0o14#4 => bif fd then .stcdf ac f else .stcfd ac f
  | 0o15#4 => .ldexp ac f
  | 0o16#4 => bif fd then (bif fl then .ldcld ac f else .ldcid ac f) else (bif fl then .ldclf ac f else .ldcif ac f)
  | _ => bif fd then .ldcfd ac f else .ldcdf ac f

/-- The instruction an instruction word stands for, under the FPS bits FD and FL (30_encoding R219). Every word has one. -/
def decode (fd fl : Bool) (w : Word) : Instr :=
  match w.extractLsb' 12 4 with
  | 0o00#4 => decodeGroup0 w
  | 0o01#4 => .mov (srcField w) (dstField w)
  | 0o02#4 => .cmp (srcField w) (dstField w)
  | 0o03#4 => .bit (srcField w) (dstField w)
  | 0o04#4 => .bic (srcField w) (dstField w)
  | 0o05#4 => .bis (srcField w) (dstField w)
  | 0o06#4 => .add (srcField w) (dstField w)
  | 0o07#4 => decodeGroup7 w
  | 0o10#4 => decodeGroup8 w
  | 0o11#4 => .movb (srcField w) (dstField w)
  | 0o12#4 => .cmpb (srcField w) (dstField w)
  | 0o13#4 => .bitb (srcField w) (dstField w)
  | 0o14#4 => .bicb (srcField w) (dstField w)
  | 0o15#4 => .bisb (srcField w) (dstField w)
  | 0o16#4 => .sub (srcField w) (dstField w)
  | _ => decodeFloat fd fl w

/-- Why a byte sequence is not an instruction. -/
inductive DecodeError where
  /-- fewer than the two bytes of an instruction word (R200); decoding bytes is only done by tools, never by the machine -/
  | tooShort
deriving DecidableEq, Repr

/-- Decode from bytes, the low byte of the word first (R202, 20_memory R101); the rest of the bytes are the instruction's
further words and what follows. -/
def decodeBytes (fd fl : Bool) : List Byte → Except DecodeError (Instr × List Byte)
  | lo :: hi :: rest => .ok (decode fd fl (hi ++ lo), rest)
  | _ => .error .tooShort

/-- The bytes of an instruction of `nbits` bits, the first byte from bits 7:0 of `w` (20_memory R101). -/
def tableBytes (nbits w : Nat) : List Byte :=
  (List.range (nbits / 8)).map fun k => BitVec.ofNat 8 (w >>> (8 * k))

/-- What the decoder reads from an instruction whose bits are `w` numbered as the opcode table numbers them, FPS clear. -/
def decodeTableWord (nbits w : Nat) : Option Instr :=
  match decodeBytes false false (tableBytes nbits w) with
  | .ok (i, _) => some i
  | .error _ => none

/-- The 3-bit register field (R214). -/
def Reg.bits : Reg → BitVec 3
  | .r0 => 0#3 | .r1 => 1#3 | .r2 => 2#3 | .r3 => 3#3 | .r4 => 4#3 | .r5 => 5#3 | .sp => 6#3 | .pc => 7#3

/-- The 3-bit mode field (R214). -/
def AddrMode.bits : AddrMode → BitVec 3
  | .register => 0#3 | .deferred => 1#3 | .autoInc => 2#3 | .autoIncDeferred => 3#3
  | .autoDec => 4#3 | .autoDecDeferred => 5#3 | .index => 6#3 | .indexDeferred => 7#3

/-- The 6-bit operand field (R214). -/
def Operand.bits (f : Operand) : BitVec 6 := f.mode.bits ++ f.reg.bits

/-- The 2-bit AC field (45 R510). -/
def AcField.bits : AcField → BitVec 2
  | .ac0 => 0#2 | .ac1 => 1#2 | .ac2 => 2#2 | .ac3 => 3#2

/-- A 10-bit opcode over an operand field (R203). -/
def encSingle (op : BitVec 10) (f : Operand) : Word := op ++ f.bits

/-- A 4-bit opcode over two operand fields (R204). -/
def encDouble (op : BitVec 4) (src dst : Operand) : Word := op ++ src.bits ++ dst.bits

/-- A 7-bit opcode over a register and an operand field (R205). -/
def encRegOp (op : BitVec 7) (r : Reg) (f : Operand) : Word := op ++ r.bits ++ f.bits

/-- An 8-bit opcode over an 8-bit offset or code (R206, R209). -/
def encBranch (op : BitVec 8) (offset : BitVec 8) : Word := op ++ offset

/-- `0b1111`, a 4-bit floating opcode, an AC field and an operand field (45 R510). -/
def encFloat (foc : BitVec 4) (ac : AcField) (f : Operand) : Word := 0o17#4 ++ foc ++ ac.bits ++ f.bits

/-- `0b1111` and an 8-bit floating opcode over an operand field (45 R510). -/
def encFloatSingle (foc : BitVec 6) (f : Operand) : Word := 0o17#4 ++ foc ++ f.bits

/-- The first word of an instruction (30_encoding R203 to R213, 45 R510). -/
def encode : Instr → Word
  | .halt => 0o000000#16
  | .wait => 0o000001#16
  | .rti => 0o000002#16
  | .bpt => 0o000003#16
  | .iot => 0o000004#16
  | .reset => 0o000005#16
  | .rtt => 0o000006#16
  | .mfpt => 0o000007#16
  | .reserved code => code
  | .ccop sense mask => 0o0005#11 ++ BitVec.ofBool sense ++ mask
  | .nop => 0o000240#16
  | .clc => 0o000241#16
  | .clv => 0o000242#16
  | .clz => 0o000244#16
  | .cln => 0o000250#16
  | .ccc => 0o000257#16
  | .sec => 0o000261#16
  | .sev => 0o000262#16
  | .sez => 0o000264#16
  | .sen => 0o000270#16
  | .scc => 0o000277#16
  | .jmp dst => encSingle 0o0001#10 dst
  | .jsr r dst => encRegOp 0o004#7 r dst
  | .rts r => 0o00020#13 ++ r.bits
  | .spl level => 0o00023#13 ++ level
  | .mark count => 0o0064#10 ++ count
  | .sob r offset => 0o077#7 ++ r.bits ++ offset
  | .emt code => encBranch 0o210#8 code
  | .trap code => encBranch 0o211#8 code
  | .br offset => encBranch 0o001#8 offset
  | .bne offset => encBranch 0o002#8 offset
  | .beq offset => encBranch 0o003#8 offset
  | .bge offset => encBranch 0o004#8 offset
  | .blt offset => encBranch 0o005#8 offset
  | .bgt offset => encBranch 0o006#8 offset
  | .ble offset => encBranch 0o007#8 offset
  | .bpl offset => encBranch 0o200#8 offset
  | .bmi offset => encBranch 0o201#8 offset
  | .bhi offset => encBranch 0o202#8 offset
  | .blos offset => encBranch 0o203#8 offset
  | .bvc offset => encBranch 0o204#8 offset
  | .bvs offset => encBranch 0o205#8 offset
  | .bcc offset => encBranch 0o206#8 offset
  | .bcs offset => encBranch 0o207#8 offset
  | .bhis offset => encBranch 0o206#8 offset
  | .blo offset => encBranch 0o207#8 offset
  | .swab dst => encSingle 0o0003#10 dst
  | .clr dst => encSingle 0o0050#10 dst
  | .com dst => encSingle 0o0051#10 dst
  | .inc dst => encSingle 0o0052#10 dst
  | .dec dst => encSingle 0o0053#10 dst
  | .neg dst => encSingle 0o0054#10 dst
  | .adc dst => encSingle 0o0055#10 dst
  | .sbc dst => encSingle 0o0056#10 dst
  | .tst dst => encSingle 0o0057#10 dst
  | .ror dst => encSingle 0o0060#10 dst
  | .rol dst => encSingle 0o0061#10 dst
  | .asr dst => encSingle 0o0062#10 dst
  | .asl dst => encSingle 0o0063#10 dst
  | .mfpi dst => encSingle 0o0065#10 dst
  | .mtpi dst => encSingle 0o0066#10 dst
  | .sxt dst => encSingle 0o0067#10 dst
  | .csm dst => encSingle 0o0070#10 dst
  | .tstset dst => encSingle 0o0072#10 dst
  | .wrtlck dst => encSingle 0o0073#10 dst
  | .clrb dst => encSingle 0o1050#10 dst
  | .comb dst => encSingle 0o1051#10 dst
  | .incb dst => encSingle 0o1052#10 dst
  | .decb dst => encSingle 0o1053#10 dst
  | .negb dst => encSingle 0o1054#10 dst
  | .adcb dst => encSingle 0o1055#10 dst
  | .sbcb dst => encSingle 0o1056#10 dst
  | .tstb dst => encSingle 0o1057#10 dst
  | .rorb dst => encSingle 0o1060#10 dst
  | .rolb dst => encSingle 0o1061#10 dst
  | .asrb dst => encSingle 0o1062#10 dst
  | .aslb dst => encSingle 0o1063#10 dst
  | .mtps dst => encSingle 0o1064#10 dst
  | .mfpd dst => encSingle 0o1065#10 dst
  | .mtpd dst => encSingle 0o1066#10 dst
  | .mfps dst => encSingle 0o1067#10 dst
  | .mov src dst => encDouble 0o01#4 src dst
  | .cmp src dst => encDouble 0o02#4 src dst
  | .bit src dst => encDouble 0o03#4 src dst
  | .bic src dst => encDouble 0o04#4 src dst
  | .bis src dst => encDouble 0o05#4 src dst
  | .add src dst => encDouble 0o06#4 src dst
  | .movb src dst => encDouble 0o11#4 src dst
  | .cmpb src dst => encDouble 0o12#4 src dst
  | .bitb src dst => encDouble 0o13#4 src dst
  | .bicb src dst => encDouble 0o14#4 src dst
  | .bisb src dst => encDouble 0o15#4 src dst
  | .sub src dst => encDouble 0o16#4 src dst
  | .mul r f => encRegOp 0o070#7 r f
  | .div r f => encRegOp 0o071#7 r f
  | .ash r f => encRegOp 0o072#7 r f
  | .ashc r f => encRegOp 0o073#7 r f
  | .xor r f => encRegOp 0o074#7 r f
  | .cfcc => 0o170000#16
  | .setf => 0o170001#16
  | .seti => 0o170002#16
  | .setd => 0o170011#16
  | .setl => 0o170012#16
  | .illegalFloat code => code
  | .ldfps f => encFloatSingle 0o01#6 f
  | .stfps f => encFloatSingle 0o02#6 f
  | .stst f => encFloatSingle 0o03#6 f
  | .clrf f => encFloatSingle 0o04#6 f
  | .clrd f => encFloatSingle 0o04#6 f
  | .tstf f => encFloatSingle 0o05#6 f
  | .tstd f => encFloatSingle 0o05#6 f
  | .absf f => encFloatSingle 0o06#6 f
  | .absd f => encFloatSingle 0o06#6 f
  | .negf f => encFloatSingle 0o07#6 f
  | .negd f => encFloatSingle 0o07#6 f
  | .mulf ac f => encFloat 0o02#4 ac f
  | .muld ac f => encFloat 0o02#4 ac f
  | .modf ac f => encFloat 0o03#4 ac f
  | .modd ac f => encFloat 0o03#4 ac f
  | .addf ac f => encFloat 0o04#4 ac f
  | .addd ac f => encFloat 0o04#4 ac f
  | .ldf ac f => encFloat 0o05#4 ac f
  | .ldd ac f => encFloat 0o05#4 ac f
  | .subf ac f => encFloat 0o06#4 ac f
  | .subd ac f => encFloat 0o06#4 ac f
  | .cmpf ac f => encFloat 0o07#4 ac f
  | .cmpd ac f => encFloat 0o07#4 ac f
  | .stf ac f => encFloat 0o10#4 ac f
  | .std ac f => encFloat 0o10#4 ac f
  | .divf ac f => encFloat 0o11#4 ac f
  | .divd ac f => encFloat 0o11#4 ac f
  | .stexp ac f => encFloat 0o12#4 ac f
  | .stcfi ac f => encFloat 0o13#4 ac f
  | .stcfl ac f => encFloat 0o13#4 ac f
  | .stcdi ac f => encFloat 0o13#4 ac f
  | .stcdl ac f => encFloat 0o13#4 ac f
  | .stcfd ac f => encFloat 0o14#4 ac f
  | .stcdf ac f => encFloat 0o14#4 ac f
  | .ldexp ac f => encFloat 0o15#4 ac f
  | .ldcif ac f => encFloat 0o16#4 ac f
  | .ldclf ac f => encFloat 0o16#4 ac f
  | .ldcid ac f => encFloat 0o16#4 ac f
  | .ldcld ac f => encFloat 0o16#4 ac f
  | .ldcdf ac f => encFloat 0o17#4 ac f
  | .ldcfd ac f => encFloat 0o17#4 ac f

end Sys2Proof
end

