-- ==== Sys2Proof/Machine/Flags.lean ====
section
/-! DEFINITION. Results and condition codes of every integer operation (41_single_operand, 42_double_operand), as functions
of the operands alone. An operation at width `w` serves the word form at 16 and the byte form at 8 (R300). -/

namespace Sys2Proof.Machine

/-- The condition codes N, Z, V, C (10_state R31). -/
structure Cc where
  n : Bool
  z : Bool
  v : Bool
  c : Bool
deriving DecidableEq, Repr

namespace Cc

/-- `PS[3:0]` (R31). -/
def bits (k : Cc) : BitVec 4 := BitVec.ofBool k.n ++ BitVec.ofBool k.z ++ BitVec.ofBool k.v ++ BitVec.ofBool k.c

/-- The condition codes in a 4-bit field. -/
def ofBits (b : BitVec 4) : Cc := ⟨b.getLsbD 3, b.getLsbD 2, b.getLsbD 1, b.getLsbD 0⟩

/-- N and Z of a result, with the given V and C. -/
def of {w : Nat} (r : BitVec w) (v c : Bool) : Cc := ⟨r.msb, r == 0#w, v, c⟩

/-- V is N xor C, for the shifts and rotates (R313 to R320). -/
def ofShift {w : Nat} (r : BitVec w) (c : Bool) : Cc := of r (r.msb ^^ c) c

end Cc

/-- A one-operand operation: from the old condition codes and the operand to the result and the new codes. -/
abbrev Unary := ∀ w : Nat, Cc → BitVec w → BitVec w × Cc

/-- A two-operand operation: from the old codes, the source and the destination to the result and the new codes. -/
abbrev Binary := ∀ w : Nat, Cc → BitVec w → BitVec w → BitVec w × Cc

/-- CLR: the result and its codes (R301). -/
def aluClr : Unary := fun w _ _ => (0#w, ⟨false, true, false, false⟩)

/-- COM (R303). -/
def aluCom : Unary := fun _ _ x => (~~~x, Cc.of (~~~x) false true)

/-- INC (R305). -/
def aluInc : Unary := fun w k x => (x + 1#w, Cc.of (x + 1#w) (x == BitVec.intMax w) k.c)

/-- DEC (R307). -/
def aluDec : Unary := fun w k x => (x - 1#w, Cc.of (x - 1#w) (x == BitVec.intMin w) k.c)

/-- NEG (R309). -/
def aluNeg : Unary := fun w _ x => (0#w - x, Cc.of (0#w - x) (0#w - x == BitVec.intMin w) (0#w - x != 0#w))

/-- TST: the operand itself (R311). -/
def aluTst : Unary := fun _ _ x => (x, Cc.of x false false)

/-- ASR (R313). -/
def aluAsr : Unary := fun _ _ x => (x.sshiftRight 1, Cc.ofShift (x.sshiftRight 1) (x.getLsbD 0))

/-- ASL (R315). -/
def aluAsl : Unary := fun _ _ x => (x <<< 1, Cc.ofShift (x <<< 1) x.msb)

/-- ROR (R317). -/
def aluRor : Unary := fun w k x =>
  let r := (x >>> 1) ||| (bif k.c then BitVec.intMin w else 0#w)
  (r, Cc.ofShift r (x.getLsbD 0))

/-- ROL (R319). -/
def aluRol : Unary := fun w k x =>
  let r := (x <<< 1) ||| (bif k.c then 1#w else 0#w)
  (r, Cc.ofShift r x.msb)

/-- ADC (R322). -/
def aluAdc : Unary := fun w k x =>
  let r := x + (bif k.c then 1#w else 0#w)
  (r, Cc.of r (x == BitVec.intMax w && k.c) (x == BitVec.allOnes w && k.c))

/-- SBC (R324). -/
def aluSbc : Unary := fun w k x =>
  let r := x - (bif k.c then 1#w else 0#w)
  (r, Cc.of r (x == BitVec.intMin w && k.c) (x == 0#w && k.c))

/-- SWAB, a word operation: the codes are those of the low byte of the result (R321). -/
def swabResult (x : Word) : Word × Cc :=
  (x.extractLsb' 0 8 ++ x.extractLsb' 8 8, Cc.of (x.extractLsb' 8 8) false false)

/-- SXT: the result from N, and the codes (R326). -/
def sxtResult (k : Cc) : Word × Cc :=
  (bif k.n then 0o177777#16 else 0#16, ⟨k.n, !k.n, false, k.c⟩)

/-- MOV: the source (R351). -/
def aluMov : Binary := fun _ k s _ => (s, Cc.of s false k.c)

/-- CMP: source minus destination (R353). -/
def aluCmp : Binary := fun _ _ s d =>
  (s - d, Cc.of (s - d) ((s.msb != d.msb) && (d.msb == (s - d).msb)) (decide (s.toNat < d.toNat)))

/-- ADD (R355). -/
def aluAdd : Binary := fun w _ s d =>
  (d + s, Cc.of (d + s) ((s.msb == d.msb) && ((d + s).msb != s.msb)) (decide (2 ^ w ≤ s.toNat + d.toNat)))

/-- SUB: destination minus source (R356). -/
def aluSub : Binary := fun _ _ s d =>
  (d - s, Cc.of (d - s) ((s.msb != d.msb) && (s.msb == (d - s).msb)) (decide (d.toNat < s.toNat)))

/-- BIT (R361). -/
def aluBit : Binary := fun _ k s d => (s &&& d, Cc.of (s &&& d) false k.c)

/-- BIC (R363). -/
def aluBic : Binary := fun _ k s d => (d &&& ~~~s, Cc.of (d &&& ~~~s) false k.c)

/-- BIS (R365). -/
def aluBis : Binary := fun _ k s d => (d ||| s, Cc.of (d ||| s) false k.c)

/-- XOR (R367). -/
def aluXor : Binary := fun _ k s d => (d ^^^ s, Cc.of (d ^^^ s) false k.c)

/-- MUL: the 32-bit product and its codes; C when it does not fit a signed word (R357). -/
def mulResult (a b : Word) : BitVec 32 × Cc :=
  let p := a.toInt * b.toInt
  (BitVec.ofInt 32 p, ⟨decide (p < 0), decide (p = 0), false, decide (p < -2 ^ 15) || decide (2 ^ 15 - 1 < p)⟩)

/-- The three ends of a DIV (R358). -/
inductive DivResult where
  | byZero
  | overflow
  | quotient (q m : Int)
deriving DecidableEq, Repr

/-- DIV of the 32-bit `n` by `d`, truncated toward zero (R358). -/
def divResult (n : BitVec 32) (d : Word) : DivResult :=
  if d.toInt = 0 then .byZero
  else
    let q := n.toInt.tdiv d.toInt
    if q < -2 ^ 15 ∨ 2 ^ 15 - 1 < q then .overflow else .quotient q (n.toInt.tmod d.toInt)

/-- ASH and ASHC: shift by the signed 6-bit count, left when positive; C is the last bit shifted out, V says that the sign
changed on the way (R359, R360). -/
def shiftResult {w : Nat} (x : BitVec w) (count : BitVec 6) : BitVec w × Cc :=
  if count.toInt = 0 then (x, Cc.of x false false)
  else if 0 < count.toInt then
    let p := x.toInt * 2 ^ count.toInt.toNat
    (BitVec.ofInt w p, Cc.of (BitVec.ofInt w p) (decide ((BitVec.ofInt w p).toInt ≠ p)) (BitVec.ofInt (w + 1) p).msb)
  else
    let k := (-count.toInt).toNat
    (x.sshiftRight k, Cc.of (x.sshiftRight k) false ((x.sshiftRight (k - 1)).getLsbD 0))

end Sys2Proof.Machine
end

