-- ==== Sys2Proof/Config.lean ====
section
/-! DEFINITION. What the platform fixes for a whole run (00_scope R8, R9) and the free values the spec leaves open (92 D1). -/

namespace Sys2Proof

/-- The power-up configuration register that external logic returns to GP reads `0o000` and `0o002`
(70_reset R742), and the two priorities that R744 to R746 leave open (00_scope R8). -/
structure PowerUpConfig where
  /-- bits 15:9, `cfg_boot_address` -/
  bootAddress : BitVec 7
  /-- bit 8, `cfg_fpa_present` -/
  fpaPresent : Bool
  /-- bit 3, `cfg_halt_option`: kernel HALT traps when set -/
  haltOption : Bool
  /-- bits 2:1, `cfg_powerup_mode` -/
  powerUpMode : BitVec 2
  /-- bit 0, `cfg_pok` -/
  pok : Bool
  /-- `powerup_priority_odt`: `PS[7:5]` after power-up option 1 -/
  priorityOdt : BitVec 3
  /-- `powerup_priority_boot`: `PS[7:5]` after power-up options 2 and 3 -/
  priorityBoot : BitVec 3
deriving DecidableEq, Repr

/-- A range of physical addresses that answers as plain storage: `first` to `last`, inclusive (20_memory R104, R110). -/
structure Span where
  first : PAddr
  last : PAddr
deriving DecidableEq, Repr

/-- The platform around the chip (00_scope R9): which addresses answer, and how (log entries 3, 4). -/
structure Platform where
  cfg : PowerUpConfig
  /-- the storage the platform provides -/
  storage : List Span
  /-- the console serial line at `0o17777560` to `0o17777566` exists (61_console R680) -/
  serialLine : Bool
  /-- words (even addresses) whose reference is answered with PARITY and ABORT (20_memory R112) -/
  parityAbortAt : List PAddr
  /-- words (even addresses) whose read is answered with PARITY alone (20_memory R112) -/
  parityErrorAt : List PAddr
deriving DecidableEq, Repr

namespace Config

/-- A free 16-bit value, by draw number (92 D1; MMR0 bits 6:1 while nothing is frozen, 10_state R56; log entry 5). -/
opaque freeWord : Nat → BitVec 16

/-- A free 32-bit value, by draw number (the low half of an accumulator after a single-precision write, 92 D30). -/
opaque freeLong : Nat → BitVec 32

/-- A free 64-bit value, by draw number (the undependable fraction bits of MODD, 46 R559; an accumulator after INIT). -/
opaque freeQuad : Nat → BitVec 64

/-- A free bit, by draw number (MMR0 bit 14 in mode 10, 92 D15; N and Z after an aborted DIV, 92 D25). -/
opaque freeBit : Nat → Bool

/-- A free 6-bit hit/miss history, by draw number (92 D11). -/
opaque freeHitMiss : Nat → BitVec 6

/-- A free 4-bit value, by draw number (FEC after INIT, 10_state R90). -/
opaque freeNibble : Nat → BitVec 4

/-- Free contents of storage, by draw number: what was written where, oldest first (70 R749; log entry 8). -/
opaque freeCells : Nat → List (PAddr × Byte)

end Config

end Sys2Proof
end

