-- ==== Sys2Proof/Machine/Memory.lean ====
section
/-! DEFINITION. Byte-addressed physical storage (20_memory R100, R101) as a list of (address, byte) in one canonical form. -/

namespace Sys2Proof.Machine

/-- Storage: the bytes that differ from what an unlisted address reads as, at strictly rising addresses. -/
abbrev Memory := List Host.Cell

namespace Memory

/-- What a byte of storage reads as before anything is written there. The spec gives no contents (10_state R90, 93 U1):
DESIGN CHOICE, unsafe (log entry 2). -/
def unlisted : Byte := 0#8

/-- The byte at an address. -/
def read : Memory → Nat → Byte
  | [], _ => unlisted
  | (b, v) :: rest, a => if b = a then v else read rest a

/-- Write one byte, keeping the canonical form: writing what an unlisted address reads as removes the entry. -/
def write : Memory → Nat → Byte → Memory
  | [], a, v => if v = unlisted then [] else [(a, v)]
  | (b, w) :: rest, a, v =>
    if a < b then (if v = unlisted then (b, w) :: rest else (a, v) :: (b, w) :: rest)
    else if a = b then (if v = unlisted then rest else (a, v) :: rest)
    else (b, w) :: write rest a v

/-- The word at an even address: the low byte at the address itself (R101). -/
def readWord (m : Memory) (a : Nat) : Word := read m (a + 1) ++ read m a

/-- Write the word at an even address (R101). -/
def writeWord (m : Memory) (a : Nat) (v : Word) : Memory :=
  write (write m a (v.extractLsb' 0 8)) (a + 1) (v.extractLsb' 8 8)

/-- Storage with the given bytes written, the last in the list last. -/
def ofCells (cells : List (PAddr × Byte)) : Memory := cells.foldl (fun m c => write m c.1.toNat c.2) []

/-- Every address listed is at least `lo`, addresses rise strictly, and no entry holds what an unlisted address reads as. -/
def wfFrom : Nat → Memory → Bool
  | _, [] => true
  | lo, (a, v) :: rest => decide (lo ≤ a) && decide (v ≠ unlisted) && wfFrom (a + 1) rest

/-- The canonical form. -/
def wf (m : Memory) : Bool := wfFrom 0 m

end Memory

end Sys2Proof.Machine
end

