-- ==== Sys2Proof/Machine/State.lean ====
section
/-! DEFINITION. Everything the spec gives the machine (10_state), the platform and the inputs the step reads (61 R712),
and the machine right after INIT. -/

namespace Sys2Proof.Machine

/-- The sixteen general registers (10_state R20): `gpr` holds set 0 at 0 to 5 and set 1 at 6 to 11. -/
structure Regs where
  gpr : Vector Word 12
  ksp : Word
  ssp : Word
  usp : Word
  pc : Word
deriving DecidableEq, Repr

/-- PIRQ request bits 15:9 (R46), the CPU error register (R48), the cache control register (R62). -/
structure SysRegs where
  pirq : BitVec 7
  cpuerr : Word
  ccr : Word
deriving DecidableEq, Repr

/-- The memory management registers (R50 to R59). Register `k` of space `s` (0 I, 1 D) of mode `m` (0 kernel, 1 supervisor,
2 user) is entry `16 m + 8 s + k`. -/
structure Mmu where
  par : Vector Word 48
  pdr : Vector Word 48
  mmr0 : Word
  mmr1 : Word
  mmr2 : Word
  mmr3 : Word
deriving DecidableEq, Repr

/-- A 64-bit accumulator; an F value is its high half (R70). -/
structure FAcc where
  hi : BitVec 32
  lo : BitVec 32
deriving DecidableEq, Repr

/-- The floating-point registers (R70 to R72). -/
structure Fpu where
  ac : Vector FAcc 6
  fps : Word
  fec : BitVec 4
  fea : Word
deriving DecidableEq, Repr

/-- The hidden state of R80, R81 that a program can observe, and the address FEA receives (45 R530). -/
structure Flow where
  /-- the address of the first word of the instruction being executed -/
  instrAddr : Word
  /-- the trace flag (60 R650) -/
  traceFlag : Bool
  pendTrace : Bool
  pendYellow : Bool
  pendFp : Bool
  pendParity : Bool
  /-- PWRF was acknowledged and has not been negated since (60 R634) -/
  pwrfAcked : Bool
  /-- no prefetched word stands: the current instruction wrote the PS, the CCR, the PC or an MMU register (70 R761), its fetch
  failed, or the machine has just been started (70 R741) -/
  prefetchFault : Bool
  /-- the old contents of the word at the PC, when the last instruction stored into it (70 R762) -/
  stale : Option Word
deriving DecidableEq, Repr

/-- A location console ODT has open (61 R692, R693). -/
inductive Target where
  | mem (addr : PAddr)
  | reg (r : Reg)
  | ps
deriving DecidableEq, Repr

/-- Where the console command loop stands when it reads a character (61 R691 to R699). -/
inductive Entry where
  /-- after the prompt, nothing typed -/
  | prompt
  /-- an address or start address is being typed -/
  | number (n : BitVec 24)
  /-- after `R` or `$`; the last character typed since -/
  | designator (last : Option (BitVec 7))
  /-- a location is open; the data typed so far -/
  | opened (t : Target) (data : Option (BitVec 18))
  /-- binary dump, waiting for the first address byte -/
  | dumpHigh
  /-- binary dump, waiting for the second address byte -/
  | dumpLow (high : Byte)
deriving DecidableEq, Repr

/-- What console ODT does once everything it has to print is printed (61 R685, R690 to R699). -/
inductive Console where
  /-- after the PC was printed: the character in RBUF is read and ignored (61 R690) -/
  | entering
  /-- read a character -/
  | read (e : Entry)
  /-- after the echo: act on the character -/
  | typed (e : Entry) (c : Byte)
  /-- after a location was named: print its contents -/
  | next (t : Target)
  /-- after the two nulls of `G`: console start at this address (61 R694) -/
  | go (addr : Word)
deriving DecidableEq, Repr

/-- What the next step does. -/
inductive Phase where
  /-- the start of the power-up sequence (70 R740) -/
  | powerUp
  /-- the power-up sequence, reading the configuration until POK (70 R747) -/
  | awaitPok
  /-- the service state, then an instruction (60 R610) -/
  | service
  /-- one instruction before any request is examined, after the console's P (61 R695) -/
  | proceed
  /-- the waiting state of WAIT (44 R462) -/
  | waiting
  /-- a trap sequence through this vector is due: an abort ended the sequence before it (60 R622) -/
  | vectoring (vector : Word)
  /-- console ODT (61 R690) -/
  | console (c : Console)
deriving DecidableEq, Repr

/-- One interrupt request line, with the answer its device gives to the acknowledge cycle: a vector, or ABORT (60 R633). -/
inductive Irq where
  | negated
  | asserted (answer : Option Word)
deriving DecidableEq, Repr

/-- The input lines as one step samples them (61 R712; log entry 7). -/
structure Lines where
  irq7 : Irq
  irq6 : Irq
  irq5 : Irq
  irq4 : Irq
  event : Bool
  pwrf : Bool
  /-- HALT as sampled at an instruction boundary (60 R636) -/
  halt : Bool
  /-- HALT as sampled at a vector read (60 R620, R636) -/
  haltAtVector : Bool
  init : Bool
deriving DecidableEq, Repr

/-- What external logic does at one bus cycle: the words that other bus masters store since the cycle before it (20_memory R151;
60 R637; log entry 9), then its answer: ABORT, PARITY, and the word of a device where the platform has nothing of its own
(20_memory R110 to R112; 61 R712). -/
structure BusAnswer where
  abort : Bool
  parity : Bool
  device : Option Word
  dma : List (PAddr × Word)
deriving DecidableEq, Repr

/-- What the environment presents at one step: the lines, the characters arriving on the console line, whether its transmitter
becomes ready, the answers to the step's bus cycles, in order, and the words that other bus masters stored between the last bus
cycle of the step before and this step (61 R712; log entries 4, 7, 9, 22). -/
structure Sample where
  lines : Lines
  chars : List Byte
  transmitted : Bool
  answers : List BusAnswer
  dma : List (PAddr × Word)
deriving DecidableEq, Repr

/-- A general-purpose bus cycle, with its code (61 R700, R701). -/
inductive GpCycle where
  | read (code : Byte)
  | write (code : Byte)
deriving DecidableEq, Repr

/-- The console line and what an observer sees: the character in RBUF while Done is set, XCSR bit 7, the characters written to
XBUF, those console ODT has still to print, and the GP cycles made, each list oldest first (61 R681 to R685, R700, R701). -/
structure Io where
  rx : Option Byte
  txReady : Bool
  tx : List Byte
  out : List Byte
  gp : List GpCycle
deriving DecidableEq, Repr

/-- The machine. -/
structure State where
  regs : Regs
  ps : Word
  sys : SysRegs
  mmu : Mmu
  fpu : Fpu
  mem : Memory
  flow : Flow
  phase : Phase
  plat : Platform
  lines : Lines
  /-- the samples still to come; when it is empty the lines stay as they are -/
  script : List Sample
  /-- the answers to the external bus cycles to come in this step; when it is empty the platform answers by itself -/
  answers : List BusAnswer
  io : Io
  /-- how many free values have been drawn (log entry 5) -/
  draws : Nat
deriving DecidableEq, Repr

/-- Why the machine stops. -/
inductive Fault where
  /-- Raised by a step in console ODT on a platform without the console serial line: "a model may treat a platform without
  the interface as one on which `EnterConsoleODT` never returns" (61 R680, 93 S3). Safe: nothing is claimed beyond it
  (log entry 12). -/
  | consoleLineAbsent
deriving DecidableEq, Repr

/-- Why the model gives no meaning. -/
inductive Refusal where
  /-- An arm of `exec` that has no meaning yet. Safe. -/
  | notModelled (mnemonic : String)
  /-- Raised by the power-up sequence when the configuration says an external floating-point accelerator is present: "the
  model refuses a platform that sets it" (45 R500, 92 D37). Safe (log entry 11). -/
  | fpaPresent
deriving DecidableEq, Repr

/-- The platform answers a bus cycle by itself, and no other master stores anything. -/
def BusAnswer.plain : BusAnswer := { abort := false, parity := false, device := none, dma := [] }

/-- All lines negated. -/
def Lines.quiet : Lines :=
  { irq7 := .negated, irq6 := .negated, irq5 := .negated, irq4 := .negated, event := false, pwrf := false, halt := false,
    haltAtVector := false, init := false }

/-- The hidden state after power-up: the pipeline is empty, nothing has been prefetched (70 R741). -/
def Flow.clear : Flow :=
  { instrAddr := 0#16, traceFlag := false, pendTrace := false, pendYellow := false, pendFp := false, pendParity := false,
    pwrfAcked := false, prefetchFault := true, stale := none }

/-- The platform at reset: option 0, no accelerator, power good (the circuit of 70 R742); all of memory space is storage,
the console line exists, nothing else answers in the I/O page (log entries 3, 4). -/
def Platform.initial : Platform :=
  { cfg := { bootAddress := 0#7, fpaPresent := false, haltOption := false, powerUpMode := 0#2, pok := true,
             priorityOdt := 0#3, priorityBoot := 7#3 },
    storage := [⟨0o00000000#22, 0o17757777#22⟩],
    serialLine := true, parityAbortAt := [], parityErrorAt := [] }

/-- The machine when INIT has just been negated (10_state R90, R94; 70 R740, R741): the registers the spec clears are 0, and
so is every register it leaves unspecified (log entry 1); no line is asserted, nothing is scripted, the serial line is idle
(log entries 7, 22). -/
def State.reset : State :=
  { regs := { gpr := Vector.replicate 12 0#16, ksp := 0#16, ssp := 0#16, usp := 0#16, pc := 0#16 },
    ps := 0#16,
    sys := { pirq := 0#7, cpuerr := 0#16, ccr := 0#16 },
    mmu := { par := Vector.replicate 48 0#16, pdr := Vector.replicate 48 0#16, mmr0 := 0#16, mmr1 := 0#16, mmr2 := 0#16,
             mmr3 := 0#16 },
    fpu := { ac := Vector.replicate 6 ⟨0#32, 0#32⟩, fps := 0#16, fec := 0#4, fea := 0#16 },
    mem := [],
    flow := Flow.clear,
    phase := .powerUp,
    plat := Platform.initial,
    lines := Lines.quiet,
    script := [],
    answers := [],
    io := { rx := none, txReady := true, tx := [], out := [], gp := [] },
    draws := 0 }

end Sys2Proof.Machine
end

