-- ==== Sys2Proof/Machine/Ops.lean ====
section
/-! DEFINITION. The named operations: registers, the PS, physical and virtual memory, the memory management unit, stacks,
free values, taking an exception and returning from one (10_state, 20_memory, 43 R400, 60_exceptions). -/

namespace Sys2Proof.Machine

/-! ## Ending an instruction early -/

/-- What `raise` names (60_exceptions R601). -/
inductive Event where
  | addressError
  | nonExistentMemory
  | ioTimeout
  | parityAbort
  | mmuAbort
  | reservedInstruction
  | illegalInstruction
  | illegalHalt
  /-- EMT, TRAP, BPT, IOT, with their vector (43 R430) -/
  | trapInstruction (vector : Word)
deriving DecidableEq, Repr

/-- Why an instruction stops before its last line: `raise`, or the "end instruction" of a floating exception (45 R524). -/
inductive Exit where
  | raise (e : Event)
  | ended
deriving DecidableEq, Repr

/-- A piece of an instruction: it goes on with a value and a state, or it exits; an exit keeps what was done (20 R156). -/
abbrev M := EStateM Exit State

/-- `raise e` (00_scope R12). -/
def raise {α : Type} (e : Event) : M α := fun s => .error (.raise e) s

/-- "end instruction" (45 R524). -/
def endInstruction {α : Type} : M α := fun s => .error .ended s

/-- Change the state. -/
def update (f : State → State) : M Unit := fun s => .ok () (f s)

/-- Look at the state. -/
def look {α : Type} (f : State → α) : M α := fun s => .ok (f s) s

/-- A free value: the next draw (log entry 5). -/
def draw {α : Type} (f : Nat → α) : M α := fun s => .ok (f s.draws) { s with draws := s.draws + 1 }

/-! ## The processor status word (10_state R31 to R39) -/

/-- Replace the bits of `mask` in `old` by those of `v`. -/
def mergeBits (old mask v : Word) : Word := (old &&& ~~~mask) ||| (v &&& mask)

/-- Kernel mode, `PS[15:14] = 00` (R31). -/
def kernel : BitVec 2 := 0#2

/-- Supervisor mode (R31). -/
def supervisor : BitVec 2 := 1#2

/-- User mode (R31). -/
def user : BitVec 2 := 3#2

namespace State

/-- The current mode, `PS[15:14]`. -/
def curMode (s : State) : BitVec 2 := s.ps.extractLsb' 14 2

/-- The previous mode, `PS[13:12]`. -/
def prevMode (s : State) : BitVec 2 := s.ps.extractLsb' 12 2

/-- The priority, `PS[7:5]`. -/
def priority (s : State) : BitVec 3 := s.ps.extractLsb' 5 3

/-- The T bit, `PS[4]`. -/
def tBit (s : State) : Bool := s.ps.getLsbD 4

/-- N, Z, V, C. -/
def cc (s : State) : Cc := Cc.ofBits (s.ps.extractLsb' 0 4)

/-- Write the PS bits of a mask; the prefetched word is discarded (70 R761). -/
def writePs (s : State) (mask v : Word) : State :=
  { s with ps := mergeBits s.ps mask v, flow := { s.flow with prefetchFault := true } }

/-- Replace N, Z, V, C. -/
def withCc (s : State) (k : Cc) : State := { s with ps := mergeBits s.ps 0o17#16 (k.bits.setWidth 16) }

end State

/-- The PS bits that an explicit write loads: all but T and the unused bits 10:9 (R33). -/
def psWritable : Word := 0o174757#16

/-- The PS after a trap sequence: the vector's word, previous mode from the interrupted PS, bits 10:9 zero (R36, 60 R620). -/
def vectorPs (w old : Word) : Word :=
  mergeBits (mergeBits 0#16 0o144777#16 w) 0o030000#16 ((old.extractLsb' 14 2).setWidth 16 <<< 12)

/-- The PS after RTI or RTT of the stacked word `w`, executed in mode `m` (R37). -/
def restoredPs (m : BitVec 2) (old w : Word) : Word :=
  if m = kernel then w &&& 0o174777#16
  else mergeBits (old ||| (w &&& 0o174000#16)) 0o37#16 w

/-! ## General registers (10_state R20 to R24) -/

namespace State

/-- The slot of R0 to R5 in the register set that `PS[11]` selects (R22). -/
def gprSlot (s : State) (n : Fin 6) : Fin 12 :=
  if s.ps.getLsbD 11 then ⟨n.val + 6, by omega⟩ else ⟨n.val, by omega⟩

/-- R0 to R5 as the PS selects them. -/
def gprN (s : State) (n : Fin 6) : Word := s.regs.gpr.get (s.gprSlot n)

/-- Write R0 to R5 as the PS selects them. -/
def setGprN (s : State) (n : Fin 6) (v : Word) : State :=
  { s with regs := { s.regs with gpr := s.regs.gpr.set (s.gprSlot n).val v (s.gprSlot n).isLt } }

/-- The stack pointer of a mode; the illegal mode `10` has the user's (R23). -/
def stackPtr (s : State) (m : BitVec 2) : Word :=
  if m = kernel then s.regs.ksp else if m = supervisor then s.regs.ssp else s.regs.usp

/-- Write the stack pointer of a mode. -/
def setStackPtr (s : State) (m : BitVec 2) (v : Word) : State :=
  if m = kernel then { s with regs := { s.regs with ksp := v } }
  else if m = supervisor then { s with regs := { s.regs with ssp := v } }
  else { s with regs := { s.regs with usp := v } }

/-- Set the PC without discarding the prefetched word: advancing past an instruction-stream word. -/
def setPc (s : State) (v : Word) : State := { s with regs := { s.regs with pc := v } }

/-- Write the PC: a jump, which discards the prefetched word (70 R761). -/
def jump (s : State) (v : Word) : State :=
  { s with regs := { s.regs with pc := v }, flow := { s.flow with prefetchFault := true } }

/-- `R[r]` (00_scope R12). -/
def reg (s : State) : Reg → Word
  | .r0 => s.gprN 0 | .r1 => s.gprN 1 | .r2 => s.gprN 2 | .r3 => s.gprN 3 | .r4 => s.gprN 4 | .r5 => s.gprN 5
  | .sp => s.stackPtr s.curMode
  | .pc => s.regs.pc

/-- `R[r] <- v` as the result of an instruction: writing R7 is a jump (40 R270). -/
def setReg (s : State) (r : Reg) (v : Word) : State :=
  match r with
  | .r0 => s.setGprN 0 v | .r1 => s.setGprN 1 v | .r2 => s.setGprN 2 v | .r3 => s.setGprN 3 v | .r4 => s.setGprN 4 v
  | .r5 => s.setGprN 5 v
  | .sp => s.setStackPtr s.curMode v
  | .pc => s.jump v

/-- `R[r] <- v` as the side effect of an addressing mode: stepping R7 is not a jump. -/
def stepReg (s : State) (r : Reg) (v : Word) : State :=
  match r with
  | .pc => s.setPc v
  | _ => s.setReg r v

end State

/-- `R r` of a register pair: `R | 1` (42 R357). -/
def oddReg : Reg → Reg
  | .r0 => .r1 | .r1 => .r1 | .r2 => .r3 | .r3 => .r3 | .r4 => .r5 | .r5 => .r5 | .sp => .pc | .pc => .pc

/-! ## Pending events and system registers -/

namespace State

/-- Set bits of the CPU error register; the hardware only ever sets them (60 R603). -/
def setCpuerr (s : State) (bits : Word) : State := { s with sys := { s.sys with cpuerr := s.sys.cpuerr ||| bits } }

/-- `request YellowStack` (40 R261). -/
def requestYellow (s : State) : State := { s with flow := { s.flow with pendYellow := true } }

/-- `request TraceTrap` (60 R650). -/
def requestTrace (s : State) : State := { s with flow := { s.flow with pendTrace := true } }

/-- `request FPTrap` (60 R635). -/
def requestFp (s : State) : State := { s with flow := { s.flow with pendFp := true } }

/-- A parity error without ABORT is left pending (60 R614). -/
def requestParity (s : State) : State := { s with flow := { s.flow with pendParity := true } }

/-- Mark that the prefetched word is discarded (70 R761). -/
def faultPrefetch (s : State) : State := { s with flow := { s.flow with prefetchFault := true } }

/-- The prefetch pipeline is empty: no word has been read ahead, so none can be stale (10_state R80; 70 R741, R761). -/
def emptyPipeline (s : State) : State := { s with flow := { s.flow with prefetchFault := true, stale := none } }

/-- A GP write cycle (61 R701). -/
def gpWrite (s : State) (code : Byte) : State := { s with io := { s.io with gp := s.io.gp ++ [.write code] } }

/-- A GP read cycle (61 R700). -/
def gpRead (s : State) (code : Byte) : State := { s with io := { s.io with gp := s.io.gp ++ [.read code] } }

/-- MMR0 bits 15:13 freeze the status registers (10_state R56). -/
def frozen (s : State) : Bool := s.mmu.mmr0.extractLsb' 13 3 != 0#3

end State

/-- The level encoded in PIRQ: the highest request pending, 0 when none is (10_state R46). -/
def pirqLevel (req : BitVec 7) : BitVec 3 :=
  if req.getLsbD 6 then 7#3 else if req.getLsbD 5 then 6#3 else if req.getLsbD 4 then 5#3 else if req.getLsbD 3 then 4#3
  else if req.getLsbD 2 then 3#3 else if req.getLsbD 1 then 2#3 else if req.getLsbD 0 then 1#3 else 0#3

/-- PIRQ as it reads: requests in 15:9, the encoded level in 7:5 and 3:1 (10_state R46). -/
def pirqWord (req : BitVec 7) : Word := req ++ 0#1 ++ pirqLevel req ++ 0#1 ++ pirqLevel req ++ 0#1

/-- The `RecordMMR1` of 10_state R57: amount in bits 7:3, register in 2:0 of a byte, the low byte first. -/
def recordMmr1 (r : BitVec 3) (amount : BitVec 5) (s : State) : State :=
  if s.frozen then s
  else if s.mmu.mmr1.extractLsb' 0 8 = 0#8 then
    { s with mmu := { s.mmu with mmr1 := s.mmu.mmr1.extractLsb' 8 8 ++ amount ++ r } }
  else { s with mmu := { s.mmu with mmr1 := amount ++ r ++ s.mmu.mmr1.extractLsb' 0 8 } }

/-! ## Physical memory (20_memory R104 to R125) -/

/-- The registers inside the chip that have a physical address (10_state R45). -/
inductive IntReg where
  | ps | pirq | cpuerr | hmr | ccr | mmr0 | mmr1 | mmr2 | mmr3
  | par (i : Fin 48)
  | pdr (i : Fin 48)
deriving DecidableEq, Repr

/-- A register of a mode's block of 32, by address bits 5:1: bit 5 PAR or PDR, bit 4 D or I, bits 3:1 the page (R45). -/
def pageReg (group : Fin 3) (a : PAddr) : IntReg :=
  let i : Fin 48 := ⟨16 * group.val + (a.extractLsb' 1 4).toNat, by have := (a.extractLsb' 1 4).isLt; omega⟩
  if a.getLsbD 5 then .par i else .pdr i

/-- The register at an even physical address (R45). -/
def intRegAt (a : PAddr) : Option IntReg :=
  if a = 0o17777776#22 then some .ps
  else if a = 0o17777772#22 then some .pirq
  else if a = 0o17777766#22 then some .cpuerr
  else if a = 0o17777752#22 then some .hmr
  else if a = 0o17777746#22 then some .ccr
  else if a = 0o17777572#22 then some .mmr0
  else if a = 0o17777574#22 then some .mmr1
  else if a = 0o17777576#22 then some .mmr2
  else if a = 0o17772516#22 then some .mmr3
  else if a.extractLsb' 6 16 = 0o177776#16 then some (pageReg 2 a)
  else if a.extractLsb' 6 16 = 0o177722#16 then some (pageReg 1 a)
  else if a.extractLsb' 6 16 = 0o177723#16 then some (pageReg 0 a)
  else none

/-- The four registers of the console serial line (61 R681 to R684). -/
inductive SerialReg where
  | rcsr | rbuf | xcsr | xbuf
deriving DecidableEq, Repr

/-- The serial register at an even physical address. -/
def serialRegAt (a : PAddr) : Option SerialReg :=
  if a = 0o17777560#22 then some .rcsr
  else if a = 0o17777562#22 then some .rbuf
  else if a = 0o17777564#22 then some .xcsr
  else if a = 0o17777566#22 then some .xbuf
  else none

/-- What answers at a physical word address (R104, R110). -/
inductive Device where
  | internal (r : IntReg)
  | serial (r : SerialReg)
  | storage
  | nothing
deriving DecidableEq, Repr

/-- Whether the platform has storage at an address. -/
def hasStorage (p : Platform) (a : PAddr) : Bool :=
  p.storage.any fun sp => decide (sp.first ≤ a) && decide (a ≤ sp.last)

/-- The even address of the word that holds a byte. -/
def wordAddr (a : PAddr) : PAddr := a &&& ~~~1#22

/-- What answers at the word that holds physical address `a`. -/
def State.deviceAt (s : State) (a : PAddr) : Device :=
  match intRegAt (wordAddr a) with
  | some r => .internal r
  | none =>
    match (if s.plat.serialLine then serialRegAt (wordAddr a) else none) with
    | some r => .serial r
    | none => if hasStorage s.plat (wordAddr a) then .storage else .nothing

/-- MMR0 bits 6:1, which an abort records (10_state R55). -/
def mmr0Status : Word := 0o176#16

/-- The value of an internal register; HMR gives a free hit/miss history, and MMR0 bits 6:1 are free while MMR0 is not frozen
(R121, 10_state R56, R63). -/
def readInt (r : IntReg) : M Word := fun s =>
  match r with
  | .ps => .ok s.ps s
  | .pirq => .ok (pirqWord s.sys.pirq) s
  | .cpuerr => .ok s.sys.cpuerr s
  | .hmr => .ok ((Config.freeHitMiss s.draws).setWidth 16) { s with draws := s.draws + 1 }
  | .ccr => .ok s.sys.ccr s
  | .mmr0 =>
    if s.frozen then .ok s.mmu.mmr0 s
    else .ok (mergeBits s.mmu.mmr0 mmr0Status (Config.freeWord s.draws)) { s with draws := s.draws + 1 }
  | .mmr1 => .ok s.mmu.mmr1 s
  | .mmr2 => .ok s.mmu.mmr2 s
  | .mmr3 => .ok s.mmu.mmr3 s
  | .par i => .ok (s.mmu.par.get i) s
  | .pdr i => .ok (s.mmu.pdr.get i) s

/-- The W bit of a PDR (10_state R52). -/
def pdrW : Word := 0o100#16

/-- The bits of a PDR that a write stores (10_state R52). -/
def pdrWritable : Word := 0o177416#16

/-- MMR0 stores bits 15:13 and 0. When the write freezes it, bits 6:1 stay at what they last tracked, a free value
(10_state R55, R56). -/
def State.writeMmr0 (s : State) (mask v : Word) : State :=
  let t : State := { s with mmu := { s.mmu with mmr0 := mergeBits s.mmu.mmr0 (mask &&& 0o160001#16) v },
                            flow := { s.flow with prefetchFault := true } }
  if s.frozen || !t.frozen then t
  else { t with mmu := { t.mmu with mmr0 := mergeBits t.mmu.mmr0 mmr0Status (Config.freeWord s.draws) }, draws := s.draws + 1 }

/-- The register write rules of 10_state R33, R47, R48, R51 to R53, R55, R57 to R59, R62, R63 on the bits of `mask`
(a byte write has the mask of its byte, 20_memory R122). A write to MMR1, MMR2 or HMR, which is ignored, does not discard the
prefetched word (log entry 14). -/
def State.writeInt (s : State) (r : IntReg) (mask v : Word) : State :=
  match r with
  | .ps => s.writePs (mask &&& psWritable) v
  | .pirq => { s with sys := { s.sys with pirq := (mergeBits (s.sys.pirq ++ 0#9) mask v).extractLsb' 9 7 } }
  | .cpuerr => { s with sys := { s.sys with cpuerr := 0#16 } }
  | .hmr => s
  | .ccr => { s with sys := { s.sys with ccr := mergeBits s.sys.ccr (mask &&& 0o003377#16) v },
                     flow := { s.flow with prefetchFault := true } }
  | .mmr0 => s.writeMmr0 mask v
  | .mmr1 => s
  | .mmr2 => s
  | .mmr3 => { s with mmu := { s.mmu with mmr3 := mergeBits s.mmu.mmr3 (mask &&& 0o000077#16) v },
                      flow := { s.flow with prefetchFault := true } }
  | .par i => { s with mmu := { s.mmu with par := s.mmu.par.set i.val (mergeBits (s.mmu.par.get i) mask v) i.isLt,
                                           pdr := s.mmu.pdr.set i.val (s.mmu.pdr.get i &&& ~~~pdrW) i.isLt },
                       flow := { s.flow with prefetchFault := true } }
  | .pdr i => { s with mmu := { s.mmu with
                                pdr := s.mmu.pdr.set i.val
                                  (mergeBits (s.mmu.pdr.get i) (mask &&& pdrWritable) v &&& ~~~pdrW) i.isLt },
                       flow := { s.flow with prefetchFault := true } }

/-- A read of a console line register: Done of the receiver while a character is in RBUF, Done of the transmitter while it is
ready, free bits elsewhere; reading RBUF takes the character, which clears Done (61 R681 to R684; log entry 22). -/
def readSerial (r : SerialReg) : M Word := fun s =>
  let free := Config.freeWord s.draws
  let s' := { s with draws := s.draws + 1 }
  match r with
  | .rcsr => .ok (mergeBits free 0o200#16 (if s.io.rx.isSome then 0o200#16 else 0#16)) s'
  | .xcsr => .ok (mergeBits free 0o200#16 (if s.io.txReady then 0o200#16 else 0#16)) s'
  | .xbuf => .ok free s'
  | .rbuf =>
    match s.io.rx with
    | none => .ok free s'
    | some c => .ok (mergeBits free 0o377#16 (c.setWidth 16)) { s' with io := { s'.io with rx := none } }

/-- A character goes to XBUF, which clears Done of the transmitter (61 R683, R684). -/
def State.transmit (s : State) (c : Byte) : State := { s with io := { s.io with tx := s.io.tx ++ [c], txReady := false } }

/-- A write to a console line register: only the low byte of XBUF does something, it sends a character (61 R684). -/
def State.writeSerial (s : State) (r : SerialReg) (mask v : Word) : State :=
  match r with
  | .xbuf => if mask.getLsbD 0 then s.transmit (v.extractLsb' 0 8) else s
  | _ => s

/-- The abort of an address nothing answers: an I/O page address times out, any other is not there (60 R612). -/
def absentEvent (a : PAddr) : Event := if a < 0o17760000#22 then .nonExistentMemory else .ioTimeout

/-- How the external cycle at an address ends: what the environment answers, and besides the addresses for which the platform
always reports PARITY, or ABORT because nothing is there (20_memory R110 to R112; log entry 4). -/
def State.busAnswer (s : State) (a : PAddr) : BusAnswer :=
  let x := s.answers.headD .plain
  { abort := x.abort || s.plat.parityAbortAt.contains (wordAddr a) ||
             (decide (s.deviceAt a = .nothing) && x.device.isNone)
    parity := x.parity || s.plat.parityAbortAt.contains (wordAddr a) || s.plat.parityErrorAt.contains (wordAddr a)
    device := x.device
    dma := x.dma }

/-- A word stored by another bus master, where the platform has storage (20_memory R151; 60 R637). -/
def State.dmaStore (s : State) (m : Memory) (w : PAddr × Word) : Memory :=
  if s.deviceAt w.1 = .storage then m.writeWord (wordAddr w.1).toNat w.2 else m

/-- Storage after other bus masters stored these words, in order. -/
def State.dmaMem (s : State) (ws : List (PAddr × Word)) : Memory := ws.foldl s.dmaStore s.mem

/-- What other bus masters stored before this cycle stands in storage, and the environment's answer to the cycle is used up
(20_memory R151; log entry 9). -/
def State.answered (s : State) : State :=
  { s with mem := s.dmaMem (s.answers.headD .plain).dma, answers := s.answers.tail }

/-- The event of an aborted cycle: a parity abort when PARITY is asserted too (20_memory R112; 60 R612, R614). -/
def abortEvent (a : PAddr) (parity : Bool) : Event := if parity then .parityAbort else absentEvent a

/-- The bus read of the word that holds `a`; PARITY alone leaves the parity interrupt pending (20_memory R110, R112). -/
def physReadWord (a : PAddr) : M Word := fun s =>
  match s.deviceAt a with
  | .internal r => readInt r s
  | d =>
    let x := s.busAnswer a
    if x.abort then .error (.raise (abortEvent a x.parity)) s.answered
    else
      let s := if x.parity then s.answered.requestParity else s.answered
      match d with
      | .serial r => readSerial r s
      | .storage => .ok (s.mem.readWord (wordAddr a).toNat) s
      | _ => .ok (x.device.getD 0#16) s

/-- The size of a memory operand. -/
inductive Size where
  | byte | word
deriving DecidableEq, Repr

/-- The two bytes of a word, by address bit 0 (20_memory R101). -/
def selectByte (a : PAddr) (w : Word) : Byte := if a.getLsbD 0 then w.extractLsb' 8 8 else w.extractLsb' 0 8

/-- `PhysRead` (20_memory R110); a byte is the low half of the answer. -/
def physRead (sz : Size) (a : PAddr) : M Word := do
  let w ← physReadWord a
  match sz with
  | .word => pure w
  | .byte => pure ((selectByte a w).setWidth 16)

/-- The bits of the word that a write of this size at this address stores. -/
def writeMask (sz : Size) (a : PAddr) : Word :=
  match sz with
  | .word => 0o177777#16
  | .byte => if a.getLsbD 0 then 0o177400#16 else 0o000377#16

/-- The data of a write, put on its byte lane. -/
def writeLane (sz : Size) (a : PAddr) (v : Word) : Word :=
  match sz with
  | .word => v
  | .byte => if a.getLsbD 0 then v <<< 8 else v

/-- The storage after `PhysWrite` to an address that is storage. -/
def Memory.store (m : Memory) (sz : Size) (a : PAddr) (v : Word) : Memory :=
  match sz with
  | .word => m.writeWord (wordAddr a).toNat v
  | .byte => m.write a.toNat (v.extractLsb' 0 8)

/-- `PhysWrite` (20_memory R110). The answer says whether the write loaded `PS[3:0]`, which then keep the value written
(10_state R35). PARITY matters only beside ABORT, and a device of the environment keeps what it is given (61 R712). What another
master stored before it in the same place is overwritten (20_memory R152). -/
def physWrite (sz : Size) (a : PAddr) (v : Word) : M Bool := fun s =>
  match s.deviceAt a with
  | .internal r =>
    .ok (decide (r = .ps) && (writeMask sz a).getLsbD 0) (s.writeInt r (writeMask sz a) (writeLane sz a v))
  | d =>
    let x := s.busAnswer a
    if x.abort then .error (.raise (abortEvent a x.parity)) s.answered
    else
      match d with
      | .serial r => .ok false (s.answered.writeSerial r (writeMask sz a) (writeLane sz a v))
      | .storage => .ok false { s.answered with mem := s.answered.mem.store sz a v }
      | _ => .ok false s.answered

/-- The next bus cycle, without what other masters would store before it. -/
def State.holdMasters (s : State) : State :=
  { s with answers := match s.answers with
      | [] => []
      | x :: rest => { x with dma := [] } :: rest }

/-- The second cycle of a bus-locked pair: the platform holds other masters off until it is done, so what they would have stored
before it is stored after it (20_memory R152, 92 D18; log entry 9). -/
def lockedCycle {α : Type} (m : M α) : M α := fun s =>
  let held := (s.answers.headD .plain).dma
  match m s.holdMasters with
  | .ok v t => .ok v { t with mem := t.dmaMem held }
  | .error e t => .error e { t with mem := t.dmaMem held }

/-! ## The memory management unit (20_memory R130 to R144) -/

/-- Instruction or data space (R132). -/
inductive Space where
  | i | d
deriving DecidableEq, Repr

/-- How a reference is checked: `modify` is the read of a read-modify-write, checked as a write (R138). -/
inductive Access where
  | read | modify | write
deriving DecidableEq, Repr

/-- 16-bit mapping: the top 8K bytes are the I/O page (R134). -/
def map16 (va : Word) : PAddr := if va < 0o160000#16 then va.setWidth 22 else 0o17600000#22 + va.setWidth 22

/-- 22-bit mapping (R135). -/
def map22 (par va : Word) : PAddr := (par + (va.extractLsb' 6 7).setWidth 16) ++ va.extractLsb' 0 6

/-- 18-bit mapping: the top 8K bytes of the 18-bit space are the I/O page (R136). -/
def map18 (par va : Word) : PAddr :=
  let block : BitVec 12 := par.extractLsb' 0 12 + (va.extractLsb' 6 7).setWidth 12
  if block.extractLsb' 7 5 = 0o37#5 then 0o17#4 ++ block ++ va.extractLsb' 0 6 else 0#4 ++ block ++ va.extractLsb' 0 6

/-- Whether D space is enabled for a mode (R133). -/
def dEnabled (mmr3 : Word) (m : BitVec 2) : Bool :=
  if m = kernel then mmr3.getLsbD 2 else if m = supervisor then mmr3.getLsbD 1 else mmr3.getLsbD 0

/-- The space whose registers are used: I when D space is disabled (R133). -/
def usedSpace (mmr3 : Word) (m : BitVec 2) (sp : Space) : Space :=
  match sp with
  | .i => .i
  | .d => if dEnabled mmr3 m then .d else .i

/-- The PAR and PDR of a reference: by mode, space used and `va[15:13]` (10_state R50). -/
def pageSlot (m : BitVec 2) (sp : Space) (va : Word) : Fin 48 :=
  let group := if m = kernel then 0 else if m = supervisor then 1 else 2
  let half := match sp with | .i => 0 | .d => 1
  ⟨16 * group + 8 * half + (va.extractLsb' 13 3).toNat, by
    have := (va.extractLsb' 13 3).isLt
    have hg : group ≤ 2 := by dsimp only [group]; split <;> (try split) <;> omega
    have hh : half ≤ 1 := by dsimp only [half]; split <;> omega
    omega⟩

/-- The page's ACF forbids every access (R137). -/
def pageNonResident (pdr : Word) : Bool := pdr.extractLsb' 1 2 == 0#2 || pdr.extractLsb' 1 2 == 2#2

/-- The block lies outside the page (R137). -/
def pageLengthError (pdr va : Word) : Bool :=
  if pdr.getLsbD 3 then decide (va.extractLsb' 6 7 < pdr.extractLsb' 8 7) else decide (pdr.extractLsb' 8 7 < va.extractLsb' 6 7)

/-- A write to a read-only page (R137). -/
def pageReadOnly (pdr : Word) (acc : Access) : Bool := pdr.extractLsb' 1 2 == 1#2 && decide (acc ≠ .read)

/-- What an MMU abort records in MMR0, unless it is frozen (R139). -/
def State.recordAbort (s : State) (nonres length readonly : Bool) (m : BitVec 2) (space : Bool) (page : BitVec 3) : State :=
  if s.frozen then s
  else { s with mmu := { s.mmu with
    mmr0 := BitVec.ofBool nonres ++ BitVec.ofBool length ++ BitVec.ofBool readonly ++ s.mmu.mmr0.extractLsb' 7 6 ++ m ++
            BitVec.ofBool space ++ page ++ s.mmu.mmr0.extractLsb' 0 1 } }

/-- The physical address of a virtual one with relocation on, in a legal mode (R135, R136). -/
def relocate (mmr3 par va : Word) : PAddr := if mmr3.getLsbD 4 then map22 par va else map18 par va

/-- `Translate` (R133 to R140). In the illegal mode, whether bit 14 is set is free, and so is the recorded space of a
data reference, which has no enable bit (R140, 92 D15; log entry 25). -/
def translate (sp : Space) (m : BitVec 2) (va : Word) (acc : Access) : M PAddr := fun s =>
  if !s.mmu.mmr0.getLsbD 0 then .ok (map16 va) s
  else if m = 2#2 then
    let length := Config.freeBit s.draws
    let space := match sp with | .i => false | .d => Config.freeBit (s.draws + 1)
    .error (.raise .mmuAbort)
      (({ s with draws := s.draws + 2 } : State).recordAbort true length false m space (va.extractLsb' 13 3))
  else
    let used := usedSpace s.mmu.mmr3 m sp
    let i := pageSlot m used va
    let pdr := s.mmu.pdr.get i
    let nonres := pageNonResident pdr
    let length := pageLengthError pdr va
    let readonly := pageReadOnly pdr acc
    if nonres || length || readonly then
      .error (.raise .mmuAbort) (s.recordAbort nonres length readonly m (decide (used = .d)) (va.extractLsb' 13 3))
    else
      .ok (relocate s.mmu.mmr3 (s.mmu.par.get i) va)
        (if acc = .write then { s with mmu := { s.mmu with pdr := s.mmu.pdr.set i.val (pdr ||| pdrW) i.isLt } } else s)

/-- The address error of a word reference to an odd address (R102). -/
def checkAligned (sz : Size) (va : Word) : M Unit :=
  if sz = .word ∧ va.getLsbD 0 = true then raise .addressError else pure ()

/-- `MemRead` (R130). -/
def memRead (sp : Space) (m : BitVec 2) (sz : Size) (va : Word) (acc : Access := .read) : M Word := do
  checkAligned sz va
  let pa ← translate sp m va acc
  physRead sz pa

/-- `MemWrite` (R130). The answer is that of `physWrite`. -/
def memWrite (sp : Space) (m : BitVec 2) (sz : Size) (va v : Word) : M Bool := do
  checkAligned sz va
  let pa ← translate sp m va .write
  physWrite sz pa v

/-! ## Stacks (43 R400) -/

/-- `StackCheck` (40 R261). -/
def stackCheck (va : Word) : M Unit := update fun s =>
  if s.curMode = kernel ∧ va < 0o400#16 then s.requestYellow else s

/-- `Push`: the SP is changed before the write (43 R400). The answer is that of `physWrite`. -/
def push (v : Word) : M Bool := do
  update fun s => recordMmr1 6#3 (-2#5) (s.setStackPtr s.curMode (s.stackPtr s.curMode - 2#16))
  let m ← look State.curMode
  let sp ← look fun s => s.stackPtr s.curMode
  memWrite .d m .word sp v

/-- `Pop`: the SP is changed after the read (43 R400). -/
def pop : M Word := do
  let m ← look State.curMode
  let sp ← look fun s => s.stackPtr s.curMode
  let v ← memRead .d m .word sp
  update fun s => recordMmr1 6#3 2#5 (s.setStackPtr s.curMode (s.stackPtr s.curMode + 2#16))
  pure v

/-! ## Entering console ODT (61 R690) -/

/-- An octal digit as ASCII. -/
def octalDigit (d : BitVec 3) : Byte := 0o60#8 + d.setWidth 8

/-- Six octal digits of a word (61 R690). -/
def octal6 (w : Word) : List Byte :=
  [octalDigit (w.extractLsb' 15 3), octalDigit (w.extractLsb' 12 3), octalDigit (w.extractLsb' 9 3),
   octalDigit (w.extractLsb' 6 3), octalDigit (w.extractLsb' 3 3), octalDigit (w.extractLsb' 0 3)]

/-- `<CR><LF>`. -/
def crlf : List Byte := [0o15#8, 0o12#8]

/-- Characters that console ODT has to print; it sends one a step, each when XBUF is ready (61 R685). -/
def State.putChars (s : State) (cs : List Byte) : State := { s with io := { s.io with out := s.io.out ++ cs } }

/-- `EnterConsoleODT`: nothing is pushed and no register changes; the PC is printed (61 R690). Without a serial line the machine
is in the console all the same, and its next step stops (log entry 12). -/
def State.enterConsole (s : State) : State :=
  State.putChars { s.gpWrite 0o234#8 with phase := .console .entering } (crlf ++ octal6 s.regs.pc)

/-! ## Taking an exception (60 R601, R603, R610 to R622, R640, R641) -/

namespace Event

/-- The vector (60 R601). -/
def vector : Event → Word
  | .addressError => 0o4#16
  | .nonExistentMemory => 0o4#16
  | .ioTimeout => 0o4#16
  | .parityAbort => 0o114#16
  | .mmuAbort => 0o250#16
  | .reservedInstruction => 0o10#16
  | .illegalInstruction => 0o4#16
  | .illegalHalt => 0o4#16
  | .trapInstruction v => v

/-- The CPU error register bit the cause sets (60 R603). -/
def cpuerrBits : Event → Word
  | .addressError => 0o100#16
  | .nonExistentMemory => 0o40#16
  | .ioTimeout => 0o20#16
  | .illegalHalt => 0o200#16
  | .parityAbort => 0#16
  | .mmuAbort => 0#16
  | .reservedInstruction => 0#16
  | .illegalInstruction => 0#16
  | .trapInstruction _ => 0#16

end Event

/-- Which sequence it is: only `other` checks its kernel pushes for the yellow zone (60 R620, R640). -/
inductive TrapKind where
  | other | yellow
deriving DecidableEq, Repr

/-- The first half of the sequence: kernel mode is forced, PC and PS are loaded from the vector (60 R620). -/
def loadVector (v : Word) (oldPs : Word) : M Unit := do
  update fun s => s.writePs 0o140000#16 0#16
  let pc ← memRead .d kernel .word v
  update fun s => s.jump pc
  let w ← memRead .d kernel .word (v + 2#16)
  update fun s => s.writePs 0o177777#16 (vectorPs w oldPs)

/-- One push of the sequence on the stack of the new mode `m`, not recorded in MMR1 (60 R620). -/
def trapPush (kind : TrapKind) (m : BitVec 2) (v : Word) : M Unit := do
  update fun s => s.setStackPtr m (s.stackPtr m - 2#16)
  let sp ← look fun s => s.stackPtr m
  update fun s => if kind = .other ∧ m = kernel ∧ sp < 0o400#16 then s.requestYellow else s
  let _ ← memWrite .d m .word sp v

/-- The second half of the sequence: the old PS, then the old PC, on the stack of mode `m` (60 R620). -/
def pushOld (kind : TrapKind) (m : BitVec 2) (oldPs oldPc : Word) : M Unit := do
  trapPush kind m oldPs
  trapPush kind m oldPc

/-- Record what an abort records besides MMR0, and leave its own sequence due (60 R622). -/
def State.nestedAbort (s : State) (e : Exit) : State :=
  match e with
  | .raise e => { s.setCpuerr e.cpuerrBits with phase := .vectoring e.vector }
  | .ended => s

/-- The emergency stack and the vector of a red stack abort (60 R641). -/
def redStackSequence (oldPs oldPc : Word) : M Unit := do
  update fun s => (s.setStackPtr kernel 0o4#16).writePs 0o140000#16 0#16
  let pc ← memRead .d kernel .word 0o4#16
  let w ← memRead .d kernel .word 0o6#16
  update fun s => (s.jump pc).writePs 0o177777#16 (vectorPs w oldPs)
  update fun s => s.setStackPtr kernel 0o2#16
  let _ ← memWrite .d kernel .word 0o2#16 oldPs
  update fun s => s.setStackPtr kernel 0o0#16
  let _ ← memWrite .d kernel .word 0o0#16 oldPc

/-- The red stack abort, after a kernel push of a sequence aborted with cause `e` (60 R641). -/
def State.redStack (s : State) (e : Exit) (oldPs oldPc : Word) : State :=
  let s := match e with
    | .raise e => s.setCpuerr (e.cpuerrBits ||| 0o4#16)
    | .ended => s
  match redStackSequence oldPs oldPc s with
  | .ok _ s' => s'
  | .error e' s' => s'.nestedAbort e'

/-- `TrapSequence(V, kind)` (60 R620), with the HALT line first, at the vector read (60 R636). -/
def State.trapSequence (s : State) (v : Word) (kind : TrapKind) : State :=
  if s.lines.haltAtVector then s.enterConsole
  else
    let s0 := { s with phase := .service, flow := { s.flow with stale := none } }
    match loadVector v s.ps s0 with
    | .error e s1 => s1.nestedAbort e
    | .ok _ s1 =>
      match pushOld kind s1.curMode s.ps s.regs.pc s1 with
      | .ok _ s2 => s2
      | .error e s2 => if s1.curMode = kernel then s2.redStack e s.ps s.regs.pc else s2.nestedAbort e

/-- Taking what an instruction raised: its cause is recorded, its trace request is dropped, the sequence runs
(60 R603, R611 to R616, R651). -/
def State.takeEvent (s : State) (e : Event) : State :=
  let s := s.setCpuerr e.cpuerrBits
  State.trapSequence { s with flow := { s.flow with traceFlag := false } } e.vector .other

/-- Run an instruction's body: what it raises is taken at once (60 R600). -/
def runBody (body : M Unit) (s : State) : State :=
  match body s with
  | .ok _ s' => s'
  | .error .ended s' => s'
  | .error (.raise e) s' => s'.takeEvent e

/-- An instruction's meaning from its body: it always goes on. -/
def complete (body : M Unit) (s : State) : Host.Outcome State Fault Refusal := .next (runBody body s)

/-- Returning from an exception: both pops use the stack of the mode that executes it; the PS and the PC are committed
together (43 R436, R437; 10_state R37). -/
def returnFromTrap : M Unit := do
  let m ← look State.curMode
  let pc ← pop
  let w ← pop
  update fun s => (s.writePs 0o177777#16 (restoredPs m s.ps w)).jump pc

end Sys2Proof.Machine
end

