-- ==== Sys2Proof/Machine/Operands.lean ====
section
/-! DEFINITION. Every operand form: the effective address (40 R250 to R261), reading, writing and modifying an operand
(40 R262 to R264), the order of source and destination (40 R266, R267), and the operands of more than one word that the
floating-point instructions use (45 R520 to R524). -/

namespace Sys2Proof.Machine

/-! ## Effective addresses -/

/-- `sp1`: the space of a reference made directly through a register (40 R252, R265). -/
def directSpace (r : Reg) : Space := if r = .pc then .i else .d

/-- `step` for the direct modes 2 and 4: an operand of `size` bytes, but always 2 through the PC and at least 2 through the
SP (40 R252, R259, R260). -/
def stepSize (r : Reg) (size : Nat) : Nat := if r = .pc then 2 else if r = .sp then max size 2 else size

/-- A register moves by a signed amount as an addressing mode's side effect, and MMR1 records it (40 R252, 10_state R57).
Moving the PC back writes it, and discards the prefetched word (70 R761, R762). -/
def moveReg (r : Reg) (amount : Int) : M Unit := update fun s =>
  let t := recordMmr1 r.bits (BitVec.ofInt 5 amount) (s.stepReg r (s.reg r + BitVec.ofInt 16 amount))
  if r = .pc ∧ amount < 0 then t.faultPrefetch else t

/-- A word read in the current mode (40 R252). -/
def readCur (sp : Space) (va : Word) : M Word := do
  let m ← look State.curMode
  memRead sp m .word va

/-- Whether an abort is a bus error, after which a fetch has advanced the PC (60 R612). -/
def Event.isBusError : Event → Bool
  | .nonExistentMemory => true
  | .ioTimeout => true
  | .parityAbort => true
  | _ => false

/-- Advance the PC past an instruction-stream word (10_state R28). -/
def State.advancePc (s : State) : State := s.setPc (s.regs.pc + 2#16)

/-- A word of the instruction stream through the PC, which advances; a bus error leaves it advanced, an address error or an
MMU abort does not (40 R258, 60 R611, R612). -/
def fetchStream : M Word := fun s =>
  match readCur .i s.regs.pc s with
  | .ok w s' => .ok w s'.advancePc
  | .error (.raise e) s' => .error (.raise e) (if e.isBusError then s'.advancePc else s')
  | .error .ended s' => .error .ended s'

/-- The kernel stack check of modes 4 and 5 with R6 (40 R261). -/
def checkStackMode (r : Reg) (va : Word) : M Unit := if r = .sp then stackCheck va else pure ()

/-- `EA(mode, reg, size)` for modes 1 to 7 (40 R252); mode 0 has no address and gives the register's content here, which no
caller uses. -/
def effectiveAddress (f : Operand) (size : Nat) : M (Space × Word) := do
  let r := f.reg
  match f.mode with
  | .register => do
    let a ← look fun s => s.reg r
    pure (directSpace r, a)
  | .deferred => do
    let a ← look fun s => s.reg r
    pure (directSpace r, a)
  | .autoInc => do
    let a ← look fun s => s.reg r
    moveReg r (stepSize r size)
    pure (directSpace r, a)
  | .autoIncDeferred => do
    let p ← look fun s => s.reg r
    moveReg r 2
    let a ← readCur (directSpace r) p
    pure (.d, a)
  | .autoDec => do
    moveReg r (-(stepSize r size : Int))
    let a ← look fun s => s.reg r
    checkStackMode r a
    pure (directSpace r, a)
  | .autoDecDeferred => do
    moveReg r (-2)
    let p ← look fun s => s.reg r
    checkStackMode r p
    let a ← readCur (directSpace r) p
    pure (.d, a)
  | .index => do
    let x ← fetchStream
    let b ← look fun s => s.reg r
    pure (.d, b + x)
  | .indexDeferred => do
    let x ← fetchStream
    let b ← look fun s => s.reg r
    let a ← readCur .d (b + x)
    pure (.d, a)

/-! ## Operands of one byte or one word -/

/-- Where an operand is, once its address has been computed. -/
inductive Place where
  | reg (r : Reg)
  | mem (sp : Space) (va : Word)
deriving DecidableEq, Repr

/-- The size of an operand in bytes (40 R252). -/
def Size.bytes : Size → Nat
  | .byte => 1
  | .word => 2

/-- Evaluate an operand field to a place: mode 0 names the register, the others compute an address (40 R251, R252). -/
def place (sz : Size) (f : Operand) : M Place :=
  if f.mode = .register then pure (.reg f.reg)
  else do
    let (sp, a) ← effectiveAddress f sz.bytes
    pure (.mem sp a)

/-- The part of a register that an operation of this size uses (40 R251). -/
def regPart (sz : Size) (v : Word) : Word :=
  match sz with
  | .word => v
  | .byte => (v.extractLsb' 0 8).setWidth 16

/-- A register after an operation of this size wrote `v`: a byte leaves the upper byte (40 R251). -/
def regMerge (sz : Size) (old v : Word) : Word :=
  match sz with
  | .word => v
  | .byte => old.extractLsb' 8 8 ++ v.extractLsb' 0 8

/-- Read the operand at a place (40 R262); a byte is the low half of the answer. -/
def readPlace (sz : Size) (p : Place) (acc : Access := .read) : M Word :=
  match p with
  | .reg r => look fun s => regPart sz (s.reg r)
  | .mem sp a => do
    let m ← look State.curMode
    memRead sp m sz a acc

/-- Write the operand at a place (40 R263). The answer says whether `PS[3:0]` were loaded (10_state R35). -/
def writePlace (sz : Size) (p : Place) (v : Word) : M Bool :=
  match p with
  | .reg r => fun s => .ok false (s.setReg r (regMerge sz (s.reg r) v))
  | .mem sp a => do
    let m ← look State.curMode
    memWrite sp m sz a v

/-- Write a byte at a place, where a register is written whole, sign-extended: MOVB and MFPS (40 R251). -/
def writeByteExtended (p : Place) (v : Byte) : M Bool :=
  match p with
  | .reg r => fun s => .ok false (s.setReg r (v.signExtend 16))
  | .mem _ _ => writePlace .byte p (v.setWidth 16)

/-- `ReadOp` (40 R262). -/
def readOp (sz : Size) (f : Operand) : M Word := do
  let p ← place sz f
  readPlace sz p

/-- `WriteOp` (40 R263). -/
def writeOp (sz : Size) (f : Operand) (v : Word) : M Bool := do
  let p ← place sz f
  writePlace sz p v

/-- The condition codes an instruction sets, last of all (40 R266); a destination write that loaded `PS[3:0]` stands
(10_state R35). -/
def setCc (wrotePs : Bool) (k : Cc) : M Unit := update fun s => if wrotePs then s else s.withCc k

/-- A source field, evaluated completely unless it is mode 0 (40 R266 step 2). -/
def earlySource (sz : Size) (f : Operand) : M (Option Word) :=
  if f.mode = .register then pure none else do
    let v ← readOp sz f
    pure (some v)

/-- The source operand: a mode 0 source register is read only now, after the destination address (40 R266 step 4, R267). -/
def lateSource (sz : Size) (f : Operand) (early : Option Word) : M Word :=
  match early with
  | some v => pure v
  | none => look fun s => regPart sz (s.reg f.reg)

/-- A one-operand operation at an operand's size. -/
def unaryAt (sz : Size) (f : Unary) (k : Cc) (x : Word) : Word × Cc :=
  match sz with
  | .word => f 16 k x
  | .byte => ((f 8 k (x.extractLsb' 0 8)).1.setWidth 16, (f 8 k (x.extractLsb' 0 8)).2)

/-- A two-operand operation at an operand's size. -/
def binaryAt (sz : Size) (f : Binary) (k : Cc) (x y : Word) : Word × Cc :=
  match sz with
  | .word => f 16 k x y
  | .byte => ((f 8 k (x.extractLsb' 0 8) (y.extractLsb' 0 8)).1.setWidth 16,
              (f 8 k (x.extractLsb' 0 8) (y.extractLsb' 0 8)).2)

/-- `ModifyOp` and the codes: the operand is read, checked as a write, replaced, and the codes are set last (40 R264). -/
def modifyOperand (sz : Size) (f : Unary) (dst : Operand) : M Unit := do
  let p ← place sz dst
  let x ← readPlace sz p .modify
  let k ← look State.cc
  let wrotePs ← writePlace sz p (unaryAt sz f k x).1
  setCc wrotePs (unaryAt sz f k x).2

/-- An operand that is read and tested only (41 R311). -/
def testOperand (sz : Size) (f : Unary) (dst : Operand) : M Unit := do
  let x ← readOp sz dst
  let k ← look State.cc
  setCc false (unaryAt sz f k x).2

/-- An operand that is written without being read (40 R263), with a result that does not depend on it. -/
def storeOperand (sz : Size) (f : Cc → Word × Cc) (dst : Operand) : M Unit := do
  let p ← place sz dst
  let k ← look State.cc
  let wrotePs ← writePlace sz p (f k).1
  setCc wrotePs (f k).2

/-- Source, then a destination that is read and written (40 R266). -/
def modifyDouble (sz : Size) (f : Binary) (src dst : Operand) : M Unit := do
  let early ← earlySource sz src
  let p ← place sz dst
  let x ← lateSource sz src early
  let y ← readPlace sz p .modify
  let k ← look State.cc
  let wrotePs ← writePlace sz p (binaryAt sz f k x y).1
  setCc wrotePs (binaryAt sz f k x y).2

/-- Source, then a destination that is only read (42 R353, R361). -/
def compareDouble (sz : Size) (f : Binary) (src dst : Operand) : M Unit := do
  let early ← earlySource sz src
  let p ← place sz dst
  let x ← lateSource sz src early
  let y ← readPlace sz p
  let k ← look State.cc
  setCc false (binaryAt sz f k x y).2

/-- Source, then a destination that is written without being read (42 R351). -/
def moveDouble (sz : Size) (src dst : Operand) : M Unit := do
  let early ← earlySource sz src
  let p ← place sz dst
  let x ← lateSource sz src early
  let k ← look State.cc
  let wrotePs ← writePlace sz p (binaryAt sz aluMov k x 0#16).1
  setCc wrotePs (binaryAt sz aluMov k x 0#16).2

/-! ## Operands of several words (45 R520 to R524) -/

/-- How many words an operand of `n` words transfers: one through an immediate, and in mode 4 with the PC (45 R521, R524). -/
def wordsMoved (f : Operand) (n : Nat) : Nat :=
  if f.reg = .pc ∧ (f.mode = .autoInc ∨ f.mode = .autoDec) then 1 else n

/-- Read `n` consecutive words, most significant first, each a reference of its own in the current mode (45 R523;
20_memory R143). -/
def readWords (sp : Space) : Nat → Word → M (List Word)
  | 0, _ => pure []
  | n + 1, a => do
    let w ← readPlace .word (.mem sp a)
    let ws ← readWords sp n (a + 2#16)
    pure (w :: ws)

/-- Write consecutive words, most significant first, each a reference of its own in the mode that is current then: after a word
that loads the PS, in the mode it loaded (45 R523; 20_memory R143). The answer says whether one of them loaded `PS[3:0]`. -/
def writeWords (sp : Space) : List Word → Word → M Bool
  | [], _ => pure false
  | w :: ws, a => do
    let b ← writePlace .word (.mem sp a) w
    let b' ← writeWords sp ws (a + 2#16)
    pure (b || b')

/-- Word `k` of a list, 0 beyond its end: what an immediate does not supply is 0 (45 R521). -/
def wordOf (ws : List Word) (k : Nat) : Word := ws.getD k 0#16

/-- Four words, most significant first, as a 64-bit pattern; a shorter operand is left-justified (45 R502). -/
def packWords (ws : List Word) : BitVec 64 := wordOf ws 0 ++ wordOf ws 1 ++ wordOf ws 2 ++ wordOf ws 3

/-- The words of a left-justified 64-bit pattern, most significant first (45 R502). -/
def unpackWords (v : BitVec 64) : List Word :=
  [v.extractLsb' 48 16, v.extractLsb' 32 16, v.extractLsb' 16 16, v.extractLsb' 0 16]

/-- Read an operand of `n` words in memory, as a left-justified pattern, with its address for a later write (45 R523). -/
def readLong (f : Operand) (n : Nat) : M (Space × Word × BitVec 64) := do
  let (sp, a) ← effectiveAddress f (2 * n)
  let ws ← readWords sp (wordsMoved f n) a
  pure (sp, a, packWords ws)

/-- Write the first `n` words of a left-justified pattern at an address already computed (45 R523). -/
def writeLongAt (f : Operand) (n : Nat) (sp : Space) (a : Word) (v : BitVec 64) : M Bool :=
  writeWords sp ((unpackWords v).take (wordsMoved f n)) a

/-- Write an operand of `n` words in memory (45 R523). -/
def writeLong (f : Operand) (n : Nat) (v : BitVec 64) : M Bool := do
  let (sp, a) ← effectiveAddress f (2 * n)
  writeLongAt f n sp a v

end Sys2Proof.Machine
end

