-- ==== Sys2Proof/Machine/Fetch.lean ====
section
/-! DEFINITION. Fetching an instruction (60 R610 part (b), R611, R612; 10_state R57, R58, R28, R30), the prefetched word that
a store may leave stale (70 R762), and placing a word where the next fetch finds it. -/

namespace Sys2Proof.Machine

/-- The start of an instruction: its address is kept, the trace flag is taken from T, MMR1 is cleared and MMR2 loaded unless
they are frozen (60 R650; 10_state R57, R58). -/
def State.beginInstruction (s : State) : State :=
  { s with
    flow := { s.flow with instrAddr := s.regs.pc, traceFlag := s.tBit, prefetchFault := false }
    mmu := if s.frozen then s.mmu else { s.mmu with mmr1 := 0#16, mmr2 := s.regs.pc } }

/-- An instruction word may not come from an internal register (10_state R30, 60 R611); the CCR is a system register, not one
of these (20_memory R104; log entry 24). -/
def checkFetchable (pa : PAddr) : M Unit := do
  let d ← look fun s => s.deviceAt pa
  match d with
  | .internal .ccr => pure ()
  | .internal _ => raise .addressError
  | _ => pure ()

/-- The demand read of the instruction word at the PC: odd address, then the MMU, then an internal register, then the bus. -/
def readInstruction : M Word := do
  let pc ← look fun s => s.regs.pc
  checkAligned .word pc
  let m ← look State.curMode
  let pa ← translate .i m pc .read
  checkFetchable pa
  physRead .word pa

/-- Which word is used: when the last instruction stored into this one, old or new is free (70 R762, 92 D50). -/
def resolveStale (w : Word) : M Word := fun s =>
  match s.flow.stale with
  | none => .ok w s
  | some old =>
    .ok (if Config.freeBit s.draws then old else w)
      { s with draws := s.draws + 1, flow := { s.flow with stale := none } }

/-- The instruction fetch: the PC advances past the word, also when a bus error ends it (60 R612), not when an address error
or an MMU abort does (60 R611). After a fetch that fails there is no prefetched word: the next fetch reads its own word
(70 R762). -/
def fetchInstruction : M Word := fun s =>
  match readInstruction s with
  | .ok w s' => resolveStale w s'.advancePc
  | .error (.raise e) s' => .error (.raise e) (if e.isBusError then s'.emptyPipeline.advancePc else s'.emptyPipeline)
  | .error .ended s' => .error .ended s'

/-- FD of the FPS (10_state R71). -/
def State.fd (s : State) : Bool := s.fpu.fps.getLsbD 7

/-- FL of the FPS (10_state R71). -/
def State.fl (s : State) : Bool := s.fpu.fps.getLsbD 6

/-- The word of storage that the next instruction fetch would read, when it would read storage. -/
def State.nextWordAddr (s : State) : Option PAddr :=
  if s.regs.pc.getLsbD 0 then none
  else
    match translate .i s.curMode s.regs.pc .read s with
    | .ok pa s' => if s'.deviceAt pa = .storage then some (wordAddr pa) else none
    | .error _ _ => none

/-- The old contents of the word at the PC, when between `before` and `after` a store of the instruction or of another bus master
changed it and nothing discarded the prefetched word (70 R762). -/
def staleAfter (before after : State) : Option Word :=
  if after.flow.prefetchFault then none
  else
    match after.nextWordAddr with
    | none => none
    | some a =>
      if before.mem.readWord a.toNat = after.mem.readWord a.toNat then none else some (before.mem.readWord a.toNat)

/-- The end of an instruction: the trace request of its flag, and what it left of the prefetched word (60 R610, R650). -/
def State.endInstruction (before after : State) : State :=
  { after with flow := { after.flow with
      traceFlag := false
      pendTrace := after.flow.pendTrace || after.flow.traceFlag
      stale := staleAfter before after } }

/-- Part (b) of the loop of 60 R610: fetch, decode and execute one instruction with the meanings `run`. -/
def instructionCycle (run : Instr → State → Host.Outcome State Fault Refusal) (s : State) :
    Host.Outcome State Fault Refusal :=
  match fetchInstruction s.beginInstruction with
  | .ok w s1 =>
    match run (decode s1.fd s1.fl w) s1 with
    | .next s2 => .next (State.endInstruction s s2)
    | .fault r => .fault r
    | .refused r => .refused r
  | .error (.raise e) s1 => .next (s1.takeEvent e)
  | .error .ended s1 => .next s1

/-! ## Placing an instruction -/

/-- The physical address of the instruction-stream word `k` words after the PC, when it is storage without parity faults. -/
def State.streamAddr (s : State) (k : Nat) : Option PAddr :=
  let s' := s.setPc (s.regs.pc + BitVec.ofNat 16 (2 * k))
  match s'.nextWordAddr with
  | some a => if s.plat.parityAbortAt.contains a || s.plat.parityErrorAt.contains a then none else some a
  | none => none

/-- Where the next three words of the instruction stream lie, when all of them can be fetched. -/
def State.streamAddrs (s : State) : Option (PAddr × PAddr × PAddr) :=
  match s.streamAddr 0, s.streamAddr 1, s.streamAddr 2 with
  | some a, some b, some c => some (a, b, c)
  | _, _, _ => none

/-- The state made ready to fetch: nothing pending, all lines quiet, the service phase. -/
def State.quiesce (s : State) : State :=
  { s with phase := .service, lines := Lines.quiet, script := [], answers := [], flow := Flow.clear, sys := { s.sys with pirq := 0#7 } }

/-- The three words of an instruction of `nbits` bits, the bits above it zero. -/
def State.storeStream (s : State) (a : PAddr × PAddr × PAddr) (nbits w : Nat) : State :=
  let v := w % 2 ^ nbits
  { s with mem := ((s.mem.writeWord a.1.toNat (BitVec.ofNat 16 v)).writeWord a.2.1.toNat
      (BitVec.ofNat 16 (v >>> 16))).writeWord a.2.2.toNat (BitVec.ofNat 16 (v >>> 32)) }

/-- The instruction whose bits are `w` placed where the next fetch reads it. Where the words at the PC cannot be fetched, the
MMU is switched off and the PC is `0o1000`, in memory that the platform then has (log entry 6). -/
def State.placeInstruction (s : State) (nbits w : Nat) : State :=
  match s.quiesce.streamAddrs with
  | some a => s.quiesce.storeStream a nbits w
  | none =>
    let s' := s.quiesce.setPc 0o1000#16
    State.storeStream
      { s' with mmu := { s'.mmu with mmr0 := s'.mmu.mmr0 &&& 0o177776#16 }
                plat := { s'.plat with storage := ⟨0#22, 0o17757777#22⟩ :: s'.plat.storage, parityAbortAt := [],
                                       parityErrorAt := [] } }
      (0o1000#22, 0o1002#22, 0o1004#22) nbits w

end Sys2Proof.Machine
end

