-- ==== Sys2Proof/Machine/Console.lean ====
section
/-! DEFINITION. The console ODT command loop: each step sends one character, reads one, or acts on one (61 R685, R690 to R702;
log entry 23). -/

namespace Sys2Proof.Machine

/-- A command character: bits 6:0 of the input, lower case read as upper (61 R685). -/
def commandCode (c : Byte) : BitVec 7 :=
  let k := c.extractLsb' 0 7
  if 0o141#7 ≤ k ∧ k ≤ 0o172#7 then k - 0o40#7 else k

/-- The octal digit a character stands for. -/
def digitOf (k : BitVec 7) : Option (BitVec 3) := if 0o60#7 ≤ k ∧ k ≤ 0o67#7 then some (k.extractLsb' 0 3) else none

/-- The echo of a character: none below `0o20`, none of a dump address; the parity bit is copied (61 R685, R699). -/
def State.echo (s : State) (e : Entry) (c : Byte) : State :=
  match e with
  | .dumpHigh | .dumpLow _ => s
  | .prompt | .number _ | .designator _ | .opened _ _ => if c.extractLsb' 0 7 < 0o20#7 then s else s.putChars [c]

/-- The loop at a given point. -/
def State.atConsole (s : State) (c : Console) : State := { s with phase := .console c }

/-- The loop where it reads a character. -/
def State.awaitChar (s : State) (e : Entry) : State := s.atConsole (.read e)

/-- `<CR><LF>@`, then the prompt state. -/
def State.prompt (s : State) : State := (s.putChars (crlf ++ [0o100#8])).awaitChar .prompt

/-- `?<CR><LF>@`: nothing else changes (61 R702). -/
def State.consoleError (s : State) : State := (s.putChars [0o77#8]).prompt

/-- The eight octal digits of an address (61 R691). -/
def octal8 (a : PAddr) : List Byte :=
  [octalDigit (a.extractLsb' 21 3), octalDigit (a.extractLsb' 18 3), octalDigit (a.extractLsb' 15 3),
   octalDigit (a.extractLsb' 12 3), octalDigit (a.extractLsb' 9 3), octalDigit (a.extractLsb' 6 3),
   octalDigit (a.extractLsb' 3 3), octalDigit (a.extractLsb' 0 3)]

/-- A piece of bus traffic that console ODT makes: an abort or a parity error gives nothing, causes no trap, sets no CPUERR bit and
leaves no request (61 R693, R702). -/
def State.consoleBus {α : Type} (s : State) (m : M α) : Option α × State :=
  match m { s with flow := { s.flow with pendParity := false } } with
  | .ok v t => (if t.flow.pendParity then none else some v, { t with flow := { t.flow with pendParity := s.flow.pendParity } })
  | .error _ t => (none, { t with flow := { t.flow with pendParity := s.flow.pendParity } })

/-- What the console reads at a location: none for an odd address, an abort or a parity error (61 R693, R702). -/
def State.consoleRead (s : State) : Target → Option Word × State
  | .reg r => (some (s.reg r), s)
  | .ps => (some s.ps, s)
  | .mem a => if a.getLsbD 0 then (none, s) else s.consoleBus (physRead .word a)

/-- What was written discarded the prefetched word, if there is one (70 R761). -/
def State.dropStale (s : State) : State :=
  { s with flow := { s.flow with stale := if s.flow.prefetchFault then none else s.flow.stale } }

/-- A deposit, through the same register and memory writes as a program's; none when it is aborted (61 R697, R702). -/
def State.deposit (s : State) (t : Target) (v : Word) : Option Unit × State :=
  let r : Option Unit × State := match t with
    | .reg r => (some (), s.setReg r v)
    | .ps => (some (), s.writePs psWritable v)
    | .mem a => s.consoleBus do
      let _ ← physWrite .word a v
  (r.1, r.2.dropStale)

/-- Print a location's contents and a space, and leave it open (61 R693). -/
def State.open (s : State) (t : Target) : State :=
  match s.consoleRead t with
  | (none, s') => s'.consoleError
  | (some w, s') => (s'.putChars (octal6 w ++ [0o40#8])).awaitChar (.opened t none)

/-- Close a location: a number typed is deposited (61 R697). -/
def State.close (s : State) (t : Target) (data : Option (BitVec 18)) : Option Unit × State :=
  match data with
  | none => (some (), s)
  | some d => s.deposit t (d.extractLsb' 0 16)

/-- The register after a register, R0 after R7 (61 R698). -/
def nextReg : Reg → Reg
  | .r0 => .r1 | .r1 => .r2 | .r2 => .r3 | .r3 => .r4 | .r4 => .r5 | .r5 => .sp | .sp => .pc | .pc => .r0

/-- `<LF>` after a location was closed: the next one is named, then opened; none after the PS (61 R698). -/
def State.openNext (s : State) (t : Target) : State :=
  match t with
  | .ps => s.prompt
  | .reg r =>
    (s.putChars (crlf ++ [0o122#8, octalDigit (nextReg r).bits, 0o57#8])).atConsole (.next (.reg (nextReg r)))
  | .mem a => (s.putChars (crlf ++ octal8 (a + 2#22) ++ [0o57#8])).atConsole (.next (.mem (a + 2#22)))

/-- The location a designator character names (61 R692). -/
def designated (k : BitVec 7) : Option Target :=
  if k = 0o123#7 then some .ps else (digitOf k).map fun d => .reg (Reg.ofBits d)

/-- `G`: two nulls are printed, then console start (61 R694). -/
def State.printGo (s : State) (addr : Word) : State := (s.putChars [0#8, 0#8]).atConsole (.go addr)

/-- `G` after the nulls: console start; an abort of its write to `0o17777744` is ignored (61 R694; 10_state R92). -/
def State.consoleGo (s : State) (addr : Word) : State :=
  let s := s.jump addr
  let s := { s with
    ps := 0#16
    sys := { pirq := 0#7, cpuerr := 0#16, ccr := s.sys.ccr }
    mmu := { s.mmu with mmr0 := s.mmu.mmr0 &&& 0o017776#16, mmr3 := 0#16 }
    fpu := { s.fpu with fps := 0#16 } }
  let s := (s.consoleBus (physWrite .word 0o17777744#22 0#16)).2
  let s := { s with sys := { s.sys with ccr := 0#16 } }
  let s := (((s.gpRead 0o000#8).gpWrite 0o014#8).gpWrite 0o214#8).gpWrite 0o034#8
  { s with
    phase := .service
    flow := { s.flow with pendTrace := false, pendYellow := false, pendFp := false, traceFlag := false, stale := none } }

/-- `P`: one instruction is run before any request is examined (61 R695). -/
def State.consoleProceed (s : State) : State := { s.gpWrite 0o034#8 with phase := .proceed }

/-- The bytes of the binary dump, at rising addresses in the first 32K words, address bits 21:16 zero (61 R699; log entry 21). -/
def dumpBytes : Nat → Word → M (List Byte)
  | 0, _ => pure []
  | n + 1, a => do
    let b ← physRead .byte (a.setWidth 22)
    let bs ← dumpBytes n (a + 1#16)
    pure (b.extractLsb' 0 8 :: bs)

/-- The binary dump of ten bytes (61 R699). -/
def State.dump (s : State) (a : Word) : State :=
  match s.consoleBus (dumpBytes 10 a) with
  | (some bs, s') => (s'.putChars bs).prompt
  | (none, s') => s'.consoleError

/-- A character at the prompt (61 R691 to R695, R699). -/
def State.atPrompt (s : State) (k : BitVec 7) : State :=
  match digitOf k with
  | some d => s.awaitChar (.number (d.setWidth 24))
  | none =>
    if k = 0o44#7 ∨ k = 0o122#7 then s.awaitChar (.designator none)
    else if k = 0o107#7 then s.printGo 0#16
    else if k = 0o120#7 then s.consoleProceed
    else if k = 0o23#7 then s.awaitChar .dumpHigh
    else s.consoleError

/-- A character after a number was begun (61 R691, R693, R694). -/
def State.atNumber (s : State) (n : BitVec 24) (k : BitVec 7) : State :=
  match digitOf k with
  | some d => s.awaitChar (.number (n <<< 3 ||| d.setWidth 24))
  | none =>
    if k = 0o57#7 then s.open (.mem (n.extractLsb' 0 22))
    else if k = 0o107#7 then s.printGo (n.extractLsb' 0 16)
    else s.consoleError

/-- A character after `R` or `$`: the last one before `/` designates (61 R692, R702). That a code below `0o20`, `<CR>` and `<LF>`
among them, prints `?` at once, and every other character but G and P is held until `/`, is log entry 31, DESIGN CHOICE. -/
def State.atDesignator (s : State) (last : Option (BitVec 7)) (k : BitVec 7) : State :=
  if k = 0o57#7 then
    match last.bind designated with
    | some t => s.open t
    | none => s.consoleError
  else if k < 0o20#7 ∨ k = 0o107#7 ∨ k = 0o120#7 then s.consoleError
  else s.awaitChar (.designator (some k))

/-- A character while a location is open (61 R693, R697, R698, R702). -/
def State.atOpened (s : State) (t : Target) (data : Option (BitVec 18)) (k : BitVec 7) : State :=
  match digitOf k with
  | some d => s.awaitChar (.opened t (some (data.getD 0#18 <<< 3 ||| d.setWidth 18)))
  | none =>
    if k = 0o15#7 then
      match s.close t data with
      | (some _, s') => s'.prompt
      | (none, s') => s'.consoleError
    else if k = 0o12#7 then
      match s.close t data with
      | (some _, s') => s'.openNext t
      | (none, s') => s'.consoleError
    else s.consoleError

/-- What a character does, once it has been echoed (61 R691, R699). -/
def State.consoleChar (s : State) (e : Entry) (ch : Byte) : State :=
  match e with
  | .prompt => s.atPrompt (commandCode ch)
  | .number n => s.atNumber n (commandCode ch)
  | .designator last => s.atDesignator last (commandCode ch)
  | .opened t data => s.atOpened t data (commandCode ch)
  | .dumpHigh => s.awaitChar (.dumpLow ch)
  | .dumpLow high => s.dump (high ++ ch)

/-- The character in RBUF is taken, which clears Done (61 R682). -/
def State.takeChar (s : State) : State := { s with io := { s.io with rx := none } }

/-- What console ODT does when it has nothing left to print; it polls RCSR without end (61 R685, R690). -/
def State.consoleAct (s : State) (c : Console) : State :=
  match c with
  | .entering => s.takeChar.prompt
  | .read e =>
    match s.io.rx with
    | none => s
    | some ch => (s.takeChar.echo e ch).atConsole (.typed e ch)
  | .typed e ch => s.consoleChar e ch
  | .next t => s.open t
  | .go addr => s.consoleGo addr

/-- One step of console ODT: a character to print goes to XBUF once XCSR says it is ready (61 R683, R685); with none left the loop
goes on. -/
def State.consoleStep (s : State) (c : Console) : State :=
  match s.io.out with
  | ch :: rest => if s.io.txReady then State.transmit { s with io := { s.io with out := rest } } ch else s
  | [] => s.consoleAct c

end Sys2Proof.Machine
end

