-- ==== Sys2Proof/Machine/Service.lean ====
section
/-! DEFINITION. The service state between instructions: which pending trap or interrupt is taken, and how (60 R602, R610,
R614, R630 to R636, R640, R650). -/

namespace Sys2Proof.Machine

/-- A pending trap or interrupt of ranks 5 to 22 (60 R602). -/
inductive Request where
  | parity
  | trace
  | yellow
  | powerFail
  | floating
  | pirq
  /-- an IRQ line, with the answer to its acknowledge cycle: a vector, or ABORT (60 R633) -/
  | irq (answer : Option Word)
  | event
deriving DecidableEq, Repr

/-- The request of an IRQ line. -/
def Irq.request : Irq → Option Request
  | .negated => none
  | .asserted answer => some (.irq answer)

/-- A PIRQ request bit, counted from level 1 at 0. -/
def State.pirqRequest (s : State) (k : Nat) : Option Request := if s.sys.pirq.getLsbD k then some .pirq else none

/-- The maskable requests with their levels, in the order of ranks 11 to 22 (60 R602). -/
def State.maskable (s : State) : List (BitVec 3 × Option Request) :=
  [(7#3, s.pirqRequest 6), (7#3, s.lines.irq7.request),
   (6#3, if s.lines.event then some .event else none), (6#3, s.pirqRequest 5), (6#3, s.lines.irq6.request),
   (5#3, s.pirqRequest 4), (5#3, s.lines.irq5.request),
   (4#3, s.pirqRequest 3), (4#3, s.lines.irq4.request),
   (3#3, s.pirqRequest 2), (2#3, s.pirqRequest 1), (1#3, s.pirqRequest 0)]

/-- The request that the service state acts on: the highest ranked, a maskable one only above the priority (60 R610). -/
def State.highestRequest (s : State) : Option Request :=
  if s.flow.pendParity then some .parity
  else if s.flow.pendTrace then some .trace
  else if s.flow.pendYellow then some .yellow
  else if s.lines.pwrf && !s.flow.pwrfAcked then some .powerFail
  else if s.flow.pendFp then some .floating
  else s.maskable.findSome? fun (level, r) => if s.priority < level then r else none

/-- What is done before the sequence: the acknowledge cycles of PWRF and EVENT, the CPUERR bit of the yellow stack
(60 R631, R634, R640). -/
def State.acknowledge (s : State) : Request → State
  | .yellow => s.setCpuerr 0o10#16
  | .powerFail => s.gpWrite 0o140#8
  | .event => s.gpWrite 0o100#8
  | .parity | .trace | .floating | .pirq | .irq _ => s

/-- The request is no longer pending. A line stays as its device drives it, a PIRQ bit until software clears it
(60 R630, R632). -/
def State.withdraw (s : State) : Request → State
  | .parity => { s with flow := { s.flow with pendParity := false } }
  | .trace => { s with flow := { s.flow with pendTrace := false } }
  | .yellow => { s with flow := { s.flow with pendYellow := false } }
  | .powerFail => { s with flow := { s.flow with pwrfAcked := true } }
  | .floating => { s with flow := { s.flow with pendFp := false } }
  | .pirq | .irq _ | .event => s

/-- The vector of a request (60 R601); an IRQ has its device's. -/
def Request.vector : Request → Word
  | .parity => 0o114#16
  | .trace => 0o14#16
  | .yellow => 0o4#16
  | .powerFail => 0o24#16
  | .floating => 0o244#16
  | .pirq => 0o240#16
  | .irq answer => answer.getD 0#16
  | .event => 0o100#16

/-- The kind of sequence a request runs: the yellow trap's own pushes are not checked (60 R640). -/
def Request.kind : Request → TrapKind
  | .yellow => .yellow
  | .parity | .trace | .powerFail | .floating | .pirq | .irq _ | .event => .other

/-- Take a request. With HALT at the vector read the console is entered and the request remains (60 R636). -/
def State.takeRequest (s : State) (r : Request) : State :=
  let s := s.acknowledge r
  if s.lines.haltAtVector then s.enterConsole else (s.withdraw r).trapSequence r.vector r.kind

/-- Part (a) of the loop of 60 R610: the state after an event was taken, or none when the next instruction is due. An
acknowledge cycle that is aborted is ignored, and execution goes on (60 R633). -/
def State.service (s : State) : Option State :=
  match s.highestRequest with
  | some (.irq none) => none
  | some r => some (s.takeRequest r)
  | none => if s.lines.halt then some s.enterConsole else none

/-- An IRQ line whose acknowledge cycle is aborted is ignored (60 R633). -/
def Irq.unlessAborted : Irq → Irq
  | .asserted none => .negated
  | l => l

/-- The lines without the IRQ lines whose acknowledge cycles are aborted (60 R633). -/
def Lines.answeredOnly (l : Lines) : Lines :=
  { l with irq7 := l.irq7.unlessAborted, irq6 := l.irq6.unlessAborted, irq5 := l.irq5.unlessAborted,
           irq4 := l.irq4.unlessAborted }

/-- What ends a wait besides the HALT line: neither a trace request nor an IRQ whose acknowledge cycle is aborted does
(44 R462; 60 R633, R651, R673; log entry 7). -/
def State.wakeRequest (s : State) : Option Request :=
  State.highestRequest { s with lines := s.lines.answeredOnly, flow := { s.flow with pendTrace := false } }

/-- What is taken when the wait ends, `first` being the event that ended it: a pending trace trap comes before an interrupt
(44 R462, 60 R651) and, as the HALT line is examined last, before that too (60 R636; log entry 7). -/
def State.wake (s : State) (first : State) : State := if s.flow.pendTrace then s.takeRequest .trace else first

/-- The waiting state of WAIT: nothing to act on leaves the machine waiting (44 R462, 60 R673). A parity interrupt ranks above the
trace trap (60 R602). -/
def State.waitStep (s : State) : State :=
  match s.wakeRequest with
  | some .parity => s.takeRequest .parity
  | some r => s.wake (s.takeRequest r)
  | none => if s.lines.halt then s.wake s.enterConsole else s

end Sys2Proof.Machine
end

