-- ==== Sys2Proof/Machine/PowerUp.lean ====
section
/-! DEFINITION. INIT and the power-up sequence (70 R740 to R749; 10_state R90, R91, R94). -/

namespace Sys2Proof.Machine

/-- INIT comes while an instruction may be in progress: in console ODT, in the waiting state and before the start nothing
runs (70 R749; 60 R673). -/
def Phase.interruptsInstruction : Phase → Bool
  | .service | .proceed | .vectoring _ => true
  | .powerUp | .awaitPok | .waiting | .console _ => false

/-- INIT while the machine runs: the registers that the spec clears are 0 and every one it leaves unspecified is a free
value; so is storage when an instruction may have been cut short, otherwise it keeps its contents; what the console had to print
is dropped, the console line's registers stay; the power-up sequence is due (10_state R94; 70 R741, R749; log entries 8, 22). -/
def State.initialise (s : State) : State :=
  let d := s.draws
  { s with
    regs := { gpr := Vector.ofFn fun n => Config.freeWord (d + n.val)
              ksp := Config.freeWord (d + 12), ssp := Config.freeWord (d + 13), usp := Config.freeWord (d + 14)
              pc := Config.freeWord (d + 15) }
    ps := 0#16
    sys := { pirq := 0#7, cpuerr := 0#16, ccr := 0#16 }
    mmu := { par := Vector.ofFn fun n => Config.freeWord (d + 16 + n.val)
             pdr := Vector.ofFn fun n => Config.freeWord (d + 64 + n.val) &&& (pdrWritable ||| pdrW)
             mmr0 := Config.freeWord (d + 112) &&& 0o176#16
             mmr1 := Config.freeWord (d + 113), mmr2 := Config.freeWord (d + 114), mmr3 := 0#16 }
    fpu := { ac := Vector.ofFn fun n => ⟨Config.freeLong (d + 115 + 2 * n.val), Config.freeLong (d + 116 + 2 * n.val)⟩
             fps := 0#16, fec := Config.freeNibble (d + 127), fea := Config.freeWord (d + 128) }
    mem := if s.phase.interruptsInstruction then Memory.ofCells (Config.freeCells (d + 130)) else s.mem
    flow := { Flow.clear with instrAddr := Config.freeWord (d + 129) }
    phase := .powerUp
    io := { s.io with out := [] }
    draws := d + 131 }

/-- The first half of the sequence: the microdiagnostics report, the configuration is due to be read (70 R740). -/
def State.powerUp (s : State) : State :=
  { ((s.gpWrite 0o220#8).gpWrite 0o224#8).gpWrite 0o230#8 with phase := .awaitPok }

/-- `PS[7:5] <- p` (70 R744, R745). -/
def State.setPriority (s : State) (p : BitVec 3) : State := s.writePs 0o340#16 (p.setWidth 16 <<< 5)

/-- Power-up option 0: PC and PS from `0o24`, nothing is pushed (70 R743). -/
def loadPowerUpVector : M Unit := do
  let pc ← memRead .d kernel .word 0o24#16
  update fun s => s.jump pc
  let w ← memRead .d kernel .word 0o26#16
  update fun s => s.writePs 0o177777#16 (vectorPs w 0#16)

/-- The start that the power-up mode selects, with the prefetch pipeline empty (70 R741, R743 to R746, R761). -/
def State.startUp (s : State) : State :=
  let cfg := s.plat.cfg
  let s := s.emptyPipeline
  let ready := { s with phase := .service }
  match cfg.powerUpMode with
  | 0#2 =>
    match loadPowerUpVector ready with
    | .ok _ s' => s'
    | .error e s' => s'.nestedAbort e
  | 1#2 => (s.setPriority cfg.priorityOdt).enterConsole
  | 2#2 => (ready.jump 0o173000#16).setPriority cfg.priorityBoot
  | 3#2 => (ready.jump (cfg.bootAddress ++ 0#9)).setPriority cfg.priorityBoot

/-- The second half of the sequence: read the configuration; without POK read it again at the next step (70 R747); otherwise
reset the bus and start by the power-up mode (70 R740). -/
def State.awaitPok (s : State) : State :=
  let s := s.gpRead 0o002#8
  if s.plat.cfg.pok then ((s.gpWrite 0o014#8).gpWrite 0o214#8).startUp else s

end Sys2Proof.Machine
end

