-- ==== Sys2Proof/Machine/Cycle.lean ====
section
/-! DEFINITION. One step of the machine around the instructions' meanings: the inputs are sampled, then the phase says what
happens (60 R610; log entry 7). -/

namespace Sys2Proof.Machine

/-- The words that other bus masters stored since the last bus cycle of the step before (20_memory R151; 60 R637; log entry 9).
One that went to the word already prefetched, if there is one, leaves open which value the next instruction is (70 R762; log
entry 14). -/
def State.dma (s : State) (ws : List (PAddr × Word)) : State :=
  let t : State := { s with mem := s.dmaMem ws }
  { t with flow := { t.flow with stale := if s.flow.stale.isSome then s.flow.stale else staleAfter s t } }

/-- Console ODT is printing: characters coming in at this time are lost (61 R685). -/
def State.printing (s : State) : Bool :=
  match s.phase with
  | .console _ => !s.io.out.isEmpty
  | .powerUp | .awaitPok | .service | .proceed | .waiting | .vectoring _ => false

/-- The characters that arrived since the last step: RBUF holds one, the last (61 R681, R685; log entry 22). -/
def State.receive (s : State) (cs : List Byte) : State :=
  match cs.getLast? with
  | none => s
  | some c => if s.printing then s else { s with io := { s.io with rx := some c } }

/-- The environment's entry for this step (61 R712). Without one the lines stay, the platform answers by itself, and the
transmitter has become ready. -/
def State.takeSample (s : State) : State :=
  match s.script with
  | [] => { s with answers := [], io := { s.io with txReady := true } }
  | x :: rest =>
    let t := (s.dma x.dma).receive x.chars
    { t with lines := x.lines, script := rest, answers := x.answers,
             io := { t.io with txReady := t.io.txReady || x.transmitted } }

/-- The inputs of this step. PWRF can be taken again once it has been negated (60 R634). -/
def State.sampleInputs (s : State) : State :=
  let t := s.takeSample
  { t with flow := { t.flow with pwrfAcked := t.flow.pwrfAcked && t.lines.pwrf } }

/-- One step on sampled inputs, with the meanings `run`. -/
def phaseStep (run : Instr → State → Host.Outcome State Fault Refusal) (s : State) : Host.Outcome State Fault Refusal :=
  match s.phase with
  | .powerUp => .next s.powerUp
  | .awaitPok => if s.plat.cfg.fpaPresent then .refused .fpaPresent else .next s.awaitPok
  | .service =>
    match s.service with
    | some s' => .next s'
    | none => instructionCycle run s
  | .proceed => instructionCycle run { s with phase := .service }
  | .waiting => .next s.waitStep
  | .vectoring v => .next (s.trapSequence v .other)
  | .console c => if s.plat.serialLine then .next (s.consoleStep c) else .fault .consoleLineAbsent

/-- One step: INIT first, then the phase. -/
def cycle (run : Instr → State → Host.Outcome State Fault Refusal) (s : State) : Host.Outcome State Fault Refusal :=
  if s.sampleInputs.lines.init then .next s.sampleInputs.initialise else phaseStep run s.sampleInputs

end Sys2Proof.Machine
end

