-- ==== Sys2Proof/Machine/Branch.lean ====
section
/-! DEFINITION. Branches (43_program_control R401 to R417). -/

namespace Sys2Proof.Machine

/-- The target of a branch: the updated PC plus twice the signed offset (30_encoding R216). -/
def branchTarget (pc : Word) (offset : BitVec 8) : Word := pc + 2#16 * offset.signExtend 16

/-- The common branch rule (R401). -/
def branchIf (taken : Cc → Bool) (offset : BitVec 8) : M Unit := update fun s =>
  if taken s.cc then s.jump (branchTarget s.regs.pc offset) else s

/-- BR: always (R402). -/
def execBr (offset : BitVec 8) (s : State) : Host.Outcome State Fault Refusal :=
  complete (branchIf (fun _ => true) offset) s

/-- BNE: Z = 0 (R403). -/
def execBne (offset : BitVec 8) (s : State) : Host.Outcome State Fault Refusal :=
  complete (branchIf (fun k => !k.z) offset) s

/-- BEQ: Z = 1 (R404). -/
def execBeq (offset : BitVec 8) (s : State) : Host.Outcome State Fault Refusal :=
  complete (branchIf (fun k => k.z) offset) s

/-- BPL: N = 0 (R405). -/
def execBpl (offset : BitVec 8) (s : State) : Host.Outcome State Fault Refusal :=
  complete (branchIf (fun k => !k.n) offset) s

/-- BMI: N = 1 (R406). -/
def execBmi (offset : BitVec 8) (s : State) : Host.Outcome State Fault Refusal :=
  complete (branchIf (fun k => k.n) offset) s

/-- BVC: V = 0 (R407). -/
def execBvc (offset : BitVec 8) (s : State) : Host.Outcome State Fault Refusal :=
  complete (branchIf (fun k => !k.v) offset) s

/-- BVS: V = 1 (R408). -/
def execBvs (offset : BitVec 8) (s : State) : Host.Outcome State Fault Refusal :=
  complete (branchIf (fun k => k.v) offset) s

/-- BCC: C = 0 (R409). -/
def execBcc (offset : BitVec 8) (s : State) : Host.Outcome State Fault Refusal :=
  complete (branchIf (fun k => !k.c) offset) s

/-- BHIS: the second name of BCC (R409). -/
def execBhis (offset : BitVec 8) (s : State) : Host.Outcome State Fault Refusal :=
  complete (branchIf (fun k => !k.c) offset) s

/-- BCS: C = 1 (R410). -/
def execBcs (offset : BitVec 8) (s : State) : Host.Outcome State Fault Refusal :=
  complete (branchIf (fun k => k.c) offset) s

/-- BLO: the second name of BCS (R410). -/
def execBlo (offset : BitVec 8) (s : State) : Host.Outcome State Fault Refusal :=
  complete (branchIf (fun k => k.c) offset) s

/-- BGE: N xor V = 0 (R411). -/
def execBge (offset : BitVec 8) (s : State) : Host.Outcome State Fault Refusal :=
  complete (branchIf (fun k => !(k.n ^^ k.v)) offset) s

/-- BLT: N xor V = 1 (R412). -/
def execBlt (offset : BitVec 8) (s : State) : Host.Outcome State Fault Refusal :=
  complete (branchIf (fun k => k.n ^^ k.v) offset) s

/-- BGT: Z or (N xor V) = 0 (R413). -/
def execBgt (offset : BitVec 8) (s : State) : Host.Outcome State Fault Refusal :=
  complete (branchIf (fun k => !(k.z || (k.n ^^ k.v))) offset) s

/-- BLE: Z or (N xor V) = 1 (R414). -/
def execBle (offset : BitVec 8) (s : State) : Host.Outcome State Fault Refusal :=
  complete (branchIf (fun k => k.z || (k.n ^^ k.v)) offset) s

/-- BHI: C = 0 and Z = 0 (R415). -/
def execBhi (offset : BitVec 8) (s : State) : Host.Outcome State Fault Refusal :=
  complete (branchIf (fun k => !k.c && !k.z) offset) s

/-- BLOS: C or Z = 1 (R416). -/
def execBlos (offset : BitVec 8) (s : State) : Host.Outcome State Fault Refusal :=
  complete (branchIf (fun k => k.c || k.z) offset) s

/-- SOB: the register is decremented; when it is not 0 the PC goes back by twice the offset (R423, 30_encoding R217). -/
def subtractAndBranch (r : Reg) (offset : BitVec 6) : M Unit := do
  update fun s => s.setReg r (s.reg r - 1#16)
  update fun s => if s.reg r = 0#16 then s else s.jump (s.regs.pc - 2#16 * offset.setWidth 16)

/-- SOB (R423). -/
def execSob (r : Reg) (offset : BitVec 6) (s : State) : Host.Outcome State Fault Refusal :=
  complete (subtractAndBranch r offset) s

end Sys2Proof.Machine
end

