-- ==== Sys2Proof/Machine/DoubleOperand.lean ====
section
/-! DEFINITION. Double-operand instructions and the extended instruction set (42_double_operand). -/

namespace Sys2Proof.Machine

/-- MOVB: a register destination is written whole, sign-extended (R352). -/
def moveByte (src dst : Operand) : M Unit := do
  let early ← earlySource .byte src
  let p ← place .byte dst
  let x ← lateSource .byte src early
  let k ← look State.cc
  let wrotePs ← writeByteExtended p (x.extractLsb' 0 8)
  setCc wrotePs (Cc.of (x.extractLsb' 0 8) false k.c)

/-- Write a 32-bit result to a register pair: the high word first, so that an odd register keeps the low word (R357, R360). -/
def State.setPair (s : State) (r : Reg) (v : BitVec 32) : State :=
  (s.setReg r (v.extractLsb' 16 16)).setReg (oddReg r) (v.extractLsb' 0 16)

/-- The 32-bit value of a register pair (R358, R360). -/
def State.pair (s : State) (r : Reg) : BitVec 32 := s.reg r ++ s.reg (oddReg r)

/-- MUL (R357). -/
def multiply (r : Reg) (src : Operand) : M Unit := do
  let b ← readOp .word src
  let a ← look fun s => s.reg r
  update fun s => s.setPair r (mulResult a b).1
  setCc false (mulResult a b).2

/-- DIV. When it ends without a quotient the registers stay, N and Z are free; with an odd register R, N, Z, V and C are free
(R358, 92 D25, 93 U4, U5). -/
def divide (r : Reg) (src : Operand) : M Unit := do
  let d ← readOp .word src
  if oddReg r = r then
    let q ← draw Config.freeWord
    let n ← draw Config.freeBit
    let z ← draw Config.freeBit
    let v ← draw Config.freeBit
    let c ← draw Config.freeBit
    update fun s => s.setReg r q
    setCc false ⟨n, z, v, c⟩
  else
    let dividend ← look fun s => s.pair r
    match divResult dividend d with
    | .quotient q m =>
      update fun s => s.setPair r (BitVec.ofInt 16 q ++ BitVec.ofInt 16 m)
      setCc false ⟨decide (q < 0), decide (q = 0), false, false⟩
    | .byZero =>
      let n ← draw Config.freeBit
      let z ← draw Config.freeBit
      setCc false ⟨n, z, true, true⟩
    | .overflow =>
      let n ← draw Config.freeBit
      let z ← draw Config.freeBit
      setCc false ⟨n, z, true, false⟩

/-- ASH: the count is the low six bits of the source (R359). -/
def shiftRegister (r : Reg) (src : Operand) : M Unit := do
  let n ← readOp .word src
  let x ← look fun s => s.reg r
  update fun s => s.setReg r (shiftResult x (n.extractLsb' 0 6)).1
  setCc false (shiftResult x (n.extractLsb' 0 6)).2

/-- ASHC: the same of a register pair (R360). -/
def shiftPair (r : Reg) (src : Operand) : M Unit := do
  let n ← readOp .word src
  let x ← look fun s => s.pair r
  update fun s => s.setPair r (shiftResult x (n.extractLsb' 0 6)).1
  setCc false (shiftResult x (n.extractLsb' 0 6)).2

/-- MOV (R351). -/
def execMov (src dst : Operand) (s : State) : Host.Outcome State Fault Refusal :=
  complete (moveDouble .word src dst) s

/-- MOVB (R352). -/
def execMovb (src dst : Operand) (s : State) : Host.Outcome State Fault Refusal :=
  complete (moveByte src dst) s

/-- CMP (R353). -/
def execCmp (src dst : Operand) (s : State) : Host.Outcome State Fault Refusal :=
  complete (compareDouble .word aluCmp src dst) s

/-- CMPB (R354). -/
def execCmpb (src dst : Operand) (s : State) : Host.Outcome State Fault Refusal :=
  complete (compareDouble .byte aluCmp src dst) s

/-- ADD (R355). -/
def execAdd (src dst : Operand) (s : State) : Host.Outcome State Fault Refusal :=
  complete (modifyDouble .word aluAdd src dst) s

/-- SUB (R356). -/
def execSub (src dst : Operand) (s : State) : Host.Outcome State Fault Refusal :=
  complete (modifyDouble .word aluSub src dst) s

/-- MUL (R357). -/
def execMul (r : Reg) (src : Operand) (s : State) : Host.Outcome State Fault Refusal :=
  complete (multiply r src) s

/-- DIV (R358). -/
def execDiv (r : Reg) (src : Operand) (s : State) : Host.Outcome State Fault Refusal :=
  complete (divide r src) s

/-- ASH (R359). -/
def execAsh (r : Reg) (src : Operand) (s : State) : Host.Outcome State Fault Refusal :=
  complete (shiftRegister r src) s

/-- ASHC (R360). -/
def execAshc (r : Reg) (src : Operand) (s : State) : Host.Outcome State Fault Refusal :=
  complete (shiftPair r src) s

/-- BIT (R361). -/
def execBit (src dst : Operand) (s : State) : Host.Outcome State Fault Refusal :=
  complete (compareDouble .word aluBit src dst) s

/-- BITB (R362). -/
def execBitb (src dst : Operand) (s : State) : Host.Outcome State Fault Refusal :=
  complete (compareDouble .byte aluBit src dst) s

/-- BIC (R363). -/
def execBic (src dst : Operand) (s : State) : Host.Outcome State Fault Refusal :=
  complete (modifyDouble .word aluBic src dst) s

/-- BICB (R364). -/
def execBicb (src dst : Operand) (s : State) : Host.Outcome State Fault Refusal :=
  complete (modifyDouble .byte aluBic src dst) s

/-- BIS (R365). -/
def execBis (src dst : Operand) (s : State) : Host.Outcome State Fault Refusal :=
  complete (modifyDouble .word aluBis src dst) s

/-- BISB (R366). -/
def execBisb (src dst : Operand) (s : State) : Host.Outcome State Fault Refusal :=
  complete (modifyDouble .byte aluBis src dst) s

/-- XOR: the register is a mode 0 source (R367). -/
def execXor (r : Reg) (dst : Operand) (s : State) : Host.Outcome State Fault Refusal :=
  complete (modifyDouble .word aluXor ⟨.register, r⟩ dst) s

end Sys2Proof.Machine
end

