-- ==== Sys2Proof/Machine/Float.lean ====
section
/-! DEFINITION. The floating-point unit: formats, exact values, chopping and rounding, storing a result, exceptions and
operands (45_floating_point). A number of either format is a 64-bit pattern, left-justified: an F number has 32 zero bits at
its low end (45 R501). -/

namespace Sys2Proof.Machine

/-! ## Formats and values -/

/-- Single or double precision (45 R501). -/
inductive FFormat where
  | f | d
deriving DecidableEq, Repr

namespace FFormat

/-- The words of a memory operand (45 R520). -/
def words : FFormat → Nat
  | .f => 2
  | .d => 4

/-- The effective fraction length L (45 R501). -/
def fraction : FFormat → Nat
  | .f => 24
  | .d => 56

/-- The other precision (45 R520). -/
def other : FFormat → FFormat
  | .f => .d
  | .d => .f

end FFormat

/-- The current precision (45 R524). -/
def State.precision (s : State) : FFormat := if s.fpu.fps.getLsbD 7 then .d else .f

/-- The exponent field (45 R501). -/
def exponentField (v : BitVec 64) : BitVec 8 := v.extractLsb' 55 8

/-- `IsZero` (45 R504). -/
def isFloatZero (v : BitVec 64) : Bool := exponentField v == 0#8

/-- `IsMinusZero` (45 R504). -/
def isMinusZero (v : BitVec 64) : Bool := isFloatZero v && v.msb

/-- An exact real number: `num / den * 2 ^ exp`, negated when `neg`; `num = 0` is zero. -/
structure Exact where
  neg : Bool
  num : Nat
  den : Nat
  exp : Int
deriving DecidableEq, Repr

namespace Exact

/-- Zero. -/
def zero : Exact := ⟨false, 0, 1, 0⟩

/-- `val` of a pattern: 0 when the exponent field is 0, else `2 ^ (e - 128) * (1/2 + m / 2 ^ 56)` (45 R503, R504). -/
def ofPattern (v : BitVec 64) : Exact :=
  if isFloatZero v then zero
  else ⟨v.msb, 2 ^ 55 + (v.extractLsb' 0 55).toNat, 1, (exponentField v).toNat - 184⟩

/-- An integer. -/
def ofInt (n : Int) : Exact := ⟨decide (n < 0), n.natAbs, 1, 0⟩

/-- The signed numerator of a number with denominator 1, brought to the exponent `e`, which is at most its own. -/
def scaled (x : Exact) (e : Int) : Int := (if x.neg then -1 else 1) * (x.num * 2 ^ (x.exp - e).toNat : Nat)

/-- The sum of two numbers with denominator 1. -/
def add (x y : Exact) : Exact :=
  let e := min x.exp y.exp
  let n := x.scaled e + y.scaled e
  ⟨decide (n < 0), n.natAbs, 1, e⟩

/-- The negative. -/
def negate (x : Exact) : Exact := { x with neg := !x.neg }

/-- The product of two numbers with denominator 1. -/
def mul (x y : Exact) : Exact := ⟨x.neg ^^ y.neg, x.num * y.num, 1, x.exp + y.exp⟩

/-- The quotient of two numbers with denominator 1, the second not zero. -/
def div (x y : Exact) : Exact := ⟨x.neg ^^ y.neg, x.num, y.num, x.exp - y.exp⟩

/-- The true exponent K of a nonzero number: `|x| = 2 ^ K * f` with `1/2 ≤ f < 1` (45 R507). -/
def trueExponent (x : Exact) : Int :=
  let j : Int := (x.num.log2 : Int) - x.den.log2
  let atLeast := if 0 ≤ j then decide (x.den * 2 ^ j.toNat ≤ x.num) else decide (x.den ≤ x.num * 2 ^ (-j).toNat)
  x.exp + (if atLeast then j + 1 else j)

/-- `floor (f * 2 ^ L)`, or `floor (f * 2 ^ L + 1/2)` when rounding (45 R507). -/
def fractionBits (x : Exact) (L : Nat) (chop : Bool) : Nat :=
  let shift : Int := L - (x.trueExponent - x.exp)
  let n := if 0 ≤ shift then x.num * 2 ^ shift.toNat else x.num
  let d := if 0 ≤ shift then x.den else x.den * 2 ^ (-shift).toNat
  if chop then n / d else (2 * n + d) / (2 * d)

/-- The magnitude of an integer part: a number with denominator 1, truncated toward zero. -/
def truncNat (x : Exact) : Nat := if 0 ≤ x.exp then x.num * 2 ^ x.exp.toNat else x.num / 2 ^ (-x.exp).toNat

/-- The number truncated toward zero. -/
def trunc (x : Exact) : Int := if x.neg then -(x.truncNat : Int) else x.truncNat

end Exact

/-- A result brought to L bits: sign, unbounded biased exponent E, fraction scaled by `2 ^ L` (45 R507). -/
structure Rounded where
  neg : Bool
  biased : Int
  fraction : Nat
deriving DecidableEq, Repr

/-- `RoundTo` (45 R507): a fraction that becomes 1 is 1/2 with the exponent one more. -/
def roundTo (x : Exact) (L : Nat) (chop : Bool) : Rounded :=
  let f := x.fractionBits L chop
  if f = 2 ^ L then ⟨x.neg, x.trueExponent + 129, 2 ^ (L - 1)⟩ else ⟨x.neg, x.trueExponent + 128, f⟩

/-- `Pack` (45 R508) as a left-justified pattern; the exponent field is the low eight bits of E. -/
def packFloat (neg : Bool) (biased : Int) (fraction L : Nat) : BitVec 64 :=
  BitVec.ofBool neg ++ BitVec.ofInt 8 biased ++ BitVec.ofNat 55 ((fraction - 2 ^ (L - 1)) * 2 ^ (56 - L))

/-- A rounded result as a pattern. -/
def Rounded.pack (r : Rounded) (L : Nat) : BitVec 64 := packFloat r.neg r.biased r.fraction L

/-! ## The FPS and exceptions (10_state R71, R72; 45 R530) -/

namespace State

/-- FT, chop (10_state R71). -/
def chop (s : State) : Bool := s.fpu.fps.getLsbD 5

/-- FIC: trap on a failed integer conversion. -/
def fic (s : State) : Bool := s.fpu.fps.getLsbD 8

/-- FIV: trap on overflow. -/
def fiv (s : State) : Bool := s.fpu.fps.getLsbD 9

/-- FIU: trap on underflow. -/
def fiu (s : State) : Bool := s.fpu.fps.getLsbD 10

/-- FIUV: trap on the undefined variable. -/
def fiuv (s : State) : Bool := s.fpu.fps.getLsbD 11

/-- FID: traps disabled. -/
def fid (s : State) : Bool := s.fpu.fps.getLsbD 14

/-- Replace the FPS. -/
def setFps (s : State) (v : Word) : State := { s with fpu := { s.fpu with fps := v } }

/-- FN, FZ, FV, FC (45 R509). -/
def withFcc (s : State) (k : Cc) : State := s.setFps (mergeBits s.fpu.fps 0o17#16 (k.bits.setWidth 16))

/-- `FPException(code)`: FER, FEC and FEA, and the trap request unless FID is set (45 R530). -/
def floatException (s : State) (code : BitVec 4) : State :=
  let s' := { s with fpu := { s.fpu with fps := s.fpu.fps ||| 0o100000#16, fec := code, fea := s.flow.instrAddr } }
  if s.fid then s' else s'.requestFp

end State

/-! ## Accumulators and operands -/

/-- The accumulator of an AC field (45 R512). -/
def acNumber : AcField → Fin 6
  | .ac0 => 0 | .ac1 => 1 | .ac2 => 2 | .ac3 => 3

/-- `ac OR 1` (46 R559). -/
def oddAc : AcField → Fin 6
  | .ac0 => 1 | .ac1 => 1 | .ac2 => 3 | .ac3 => 3

/-- The accumulator a mode 0 FSRC or FDST names; 6 and 7 do not exist (45 R522, R531). -/
def accOfReg : Reg → Option (Fin 6)
  | .r0 => some 0 | .r1 => some 1 | .r2 => some 2 | .r3 => some 3 | .r4 => some 4 | .r5 => some 5 | .sp => none | .pc => none

/-- An accumulator in a format (10_state R70). -/
def State.acc (s : State) (n : Fin 6) (fmt : FFormat) : BitVec 64 :=
  match fmt with
  | .f => (s.fpu.ac.get n).hi ++ 0#32
  | .d => (s.fpu.ac.get n).hi ++ (s.fpu.ac.get n).lo

/-- Write an accumulator in a format: an F write leaves the low half unspecified, a free value (10_state R70, 92 D30). -/
def State.setAcc (s : State) (n : Fin 6) (fmt : FFormat) (v : BitVec 64) : State :=
  match fmt with
  | .f => { s with fpu := { s.fpu with ac := s.fpu.ac.set n.val ⟨v.extractLsb' 32 32, Config.freeLong s.draws⟩ n.isLt },
                   draws := s.draws + 1 }
  | .d => { s with fpu := { s.fpu with ac := s.fpu.ac.set n.val ⟨v.extractLsb' 32 32, v.extractLsb' 0 32⟩ n.isLt } }

/-- Where a floating operand is (45 R522, R523). -/
inductive FPlace where
  | acc (n : Fin 6)
  | mem (sp : Space) (va : Word)
deriving DecidableEq, Repr

/-- Evaluate an FSRC or FDST field; accumulator 6 or 7 is an illegal floating op code and ends the instruction (45 R531). -/
def floatPlace (f : Operand) (fmt : FFormat) : M FPlace :=
  if f.mode = .register then
    match accOfReg f.reg with
    | some n => pure (.acc n)
    | none => do
      update fun s => s.floatException 2#4
      endInstruction
  else do
    let (sp, a) ← effectiveAddress f (2 * fmt.words)
    pure (.mem sp a)

/-- Read the operand at a place (45 R523, R524). -/
def readFloatPlace (f : Operand) (fmt : FFormat) (p : FPlace) : M (BitVec 64) :=
  match p with
  | .acc n => look fun s => s.acc n fmt
  | .mem sp a => do
    let ws ← readWords sp (wordsMoved f fmt.words) a
    pure (packWords ws)

/-- Write the operand at a place (45 R523, R524). -/
def writeFloatPlace (f : Operand) (fmt : FFormat) (p : FPlace) (v : BitVec 64) : M Unit :=
  match p with
  | .acc n => update fun s => s.setAcc n fmt v
  | .mem sp a => do
    let _ ← writeLongAt f fmt.words sp a v

/-- `FIUVCheck`: a -0 from memory with FIUV set ends the instruction (45 R524). -/
def checkUndefined (p : FPlace) (v : BitVec 64) : M Unit := do
  let trap ← look fun s =>
    match p with
    | .acc _ => false
    | .mem _ _ => s.fiuv && isMinusZero v
  if trap then
    update fun s => s.floatException 12#4
    endInstruction
  else pure ()

/-- `ReadF` and `FIUVCheck` of a source (45 R524). -/
def readFloatSource (f : Operand) (fmt : FFormat) : M (BitVec 64) := do
  let p ← floatPlace f fmt
  let v ← readFloatPlace f fmt p
  checkUndefined p v
  pure v

/-! ## Storing a result (45 R508, R509) -/

/-- What an operation stores: the pattern, FV, and the exception it raises, if any. -/
structure FResult where
  value : BitVec 64
  fv : Bool
  code : Option (BitVec 4)
deriving DecidableEq, Repr

/-- FN, FZ, FV, FC of a stored pattern (45 R509). -/
def floatCc (v : BitVec 64) (fv fc : Bool) : Cc := ⟨v.msb, isFloatZero v, fv, fc⟩

/-- A result whose exponent is already known, against the limits of the format: exact 0 on an overflow or underflow that
does not trap (45 R508). -/
def limitResult (biased : Int) (pattern : BitVec 64) (fiv fiu : Bool) : FResult :=
  if 0o377 < biased then (if fiv then ⟨pattern, true, some 8#4⟩ else ⟨0#64, true, none⟩)
  else if biased < 1 then (if fiu then ⟨pattern, false, some 10#4⟩ else ⟨0#64, false, none⟩)
  else ⟨pattern, false, none⟩

/-- The result of an arithmetic operation (45 R508). -/
def arithResult (x : Exact) (fmt : FFormat) (chop fiv fiu : Bool) : FResult :=
  if x.num = 0 then ⟨0#64, false, none⟩
  else
    let r := roundTo x fmt.fraction chop
    limitResult r.biased (r.pack fmt.fraction) fiv fiu

/-- Raise a result's exception, if it has one. -/
def State.raiseCode (s : State) : Option (BitVec 4) → State
  | none => s
  | some code => s.floatException code

/-- Store a result in an accumulator, raise its exception, set the floating condition codes (45 R508). -/
def State.storeResult (s : State) (n : Fin 6) (fmt : FFormat) (r : FResult) : State :=
  ((s.setAcc n fmt r.value).raiseCode r.code).withFcc (floatCc r.value r.fv false)

/-- `StoreArith` (45 R508). -/
def storeArith (n : Fin 6) (fmt : FFormat) (x : Exact) : M Unit := update fun s =>
  s.storeResult n fmt (arithResult x fmt s.chop s.fiv s.fiu)

end Sys2Proof.Machine
end

