-- ==== Sys2Proof/Machine/FloatOps.lean ====
section
/-! DEFINITION. The floating-point instructions (46_floating_point_instructions). The F and D (I and L) names of one code
have one body, which takes the precision from the FPS (45 R500). -/

namespace Sys2Proof.Machine

/-- CFCC (R541). -/
def copyFloatCc : M Unit := update fun s => s.withCc (Cc.ofBits (s.fpu.fps.extractLsb' 0 4))

/-- Set or clear one bit of the FPS: SETF, SETD, SETI, SETL (R542 to R545). -/
def setFloatMode (bit : Word) (on : Bool) : M Unit := update fun s =>
  s.setFps (if on then s.fpu.fps ||| bit else s.fpu.fps &&& ~~~bit)

/-- The FPS bits that exist (R546; 10_state R71). -/
def fpsMask : Word := 0o147757#16

/-- LDFPS (R546). -/
def loadFps (src : Operand) : M Unit := do
  let v ← readOp .word src
  update fun s => s.setFps (v &&& fpsMask)

/-- STFPS (R571). -/
def storeFps (dst : Operand) : M Unit := do
  let p ← place .word dst
  let v ← look fun s => s.fpu.fps &&& fpsMask
  let _ ← writePlace .word p v

/-- STST: FEC, then FEA where there is a second word (R547). -/
def storeStatus (dst : Operand) : M Unit :=
  if dst.mode = .register then update fun s => s.setReg dst.reg (s.fpu.fec.setWidth 16)
  else do
    let (sp, a) ← effectiveAddress dst 4
    let v ← look fun s => s.fpu.fec.setWidth 16 ++ s.fpu.fea ++ 0#32
    let _ ← writeLongAt dst 2 sp a v

/-- CLRF, CLRD (R548). -/
def clearFloat (fdst : Operand) : M Unit := do
  let fmt ← look State.precision
  let p ← floatPlace fdst fmt
  writeFloatPlace fdst fmt p 0#64
  update fun s => s.withFcc ⟨false, true, false, false⟩

/-- TSTF, TSTD (R549). -/
def testFloat (fdst : Operand) : M Unit := do
  let fmt ← look State.precision
  let v ← readFloatSource fdst fmt
  update fun s => s.withFcc (floatCc v false false)

/-- A floating operand read, changed and written at the same place, then FN and FZ of the result (R550, R551). -/
def modifyFloat (g : BitVec 64 → BitVec 64) (fdst : Operand) : M Unit := do
  let fmt ← look State.precision
  let p ← floatPlace fdst fmt
  let v ← readFloatPlace fdst fmt p
  checkUndefined p v
  writeFloatPlace fdst fmt p (g v)
  update fun s => s.withFcc (floatCc (g v) false false)

/-- The absolute value; a zero of any kind becomes the clean zero (R550). -/
def absFloat (v : BitVec 64) : BitVec 64 := if isFloatZero v then 0#64 else v &&& ~~~(BitVec.intMin 64)

/-- The negative; a zero of any kind becomes the clean zero (R551). -/
def negFloat (v : BitVec 64) : BitVec 64 := if isFloatZero v then 0#64 else v ^^^ BitVec.intMin 64

/-- LDF, LDD: the pattern is copied unchanged (R552). -/
def loadFloat (ac : AcField) (fsrc : Operand) : M Unit := do
  let fmt ← look State.precision
  let v ← readFloatSource fsrc fmt
  update fun s => (s.setAcc (acNumber ac) fmt v).withFcc (floatCc v false false)

/-- STF, STD: no condition code changes (R553). -/
def storeFloat (ac : AcField) (fdst : Operand) : M Unit := do
  let fmt ← look State.precision
  let p ← floatPlace fdst fmt
  let v ← look fun s => s.acc (acNumber ac) fmt
  writeFloatPlace fdst fmt p v

/-- ADD, SUB, MUL: the exact operation on accumulator and source, then `StoreArith` (R554 to R556). -/
def arithFloat (op : Exact → Exact → Exact) (ac : AcField) (fsrc : Operand) : M Unit := do
  let fmt ← look State.precision
  let v ← readFloatSource fsrc fmt
  let a ← look fun s => s.acc (acNumber ac) fmt
  storeArith (acNumber ac) fmt (op (Exact.ofPattern a) (Exact.ofPattern v))

/-- DIVF, DIVD: a zero divisor is exception 4 and ends the instruction (R557). -/
def divideFloat (ac : AcField) (fsrc : Operand) : M Unit := do
  let fmt ← look State.precision
  let v ← readFloatSource fsrc fmt
  if isFloatZero v then
    update fun s => s.floatException 4#4
    endInstruction
  else
    let a ← look fun s => s.acc (acNumber ac) fmt
    storeArith (acNumber ac) fmt ((Exact.ofPattern a).div (Exact.ofPattern v))

/-- CMPF, CMPD: the codes of source minus accumulator; two zeros leave the clean zero in the accumulator (R558). -/
def compareFloat (ac : AcField) (fsrc : Operand) : M Unit := do
  let fmt ← look State.precision
  let v ← readFloatSource fsrc fmt
  let a ← look fun s => s.acc (acNumber ac) fmt
  let diff := (Exact.ofPattern v).add (Exact.ofPattern a).negate
  update fun s => s.withFcc ⟨diff.neg, decide (diff.num = 0), false, false⟩
  update fun s => if isFloatZero v && isFloatZero a then s.setAcc (acNumber ac) fmt 0#64 else s

/-- What MODF and MODD store: the integer part, the fraction part, FV, the exception, and how many low bits of the fraction
part are undependable (R559). -/
structure ModResult where
  whole : BitVec 64
  part : BitVec 64
  fv : Bool
  code : Option (BitVec 4)
  openBits : Nat
deriving DecidableEq, Repr

/-- The integer part N of a product as a pattern: exact in case 3, chopped to L bits in cases 1 and 2 (R559). -/
def chopPattern (x : Exact) (L : Nat) : BitVec 64 :=
  packFloat x.neg (x.trueExponent + 128) (x.fractionBits L true) L

/-- The fraction part g of a product with denominator 1: the product less its integer part (R559). -/
def fractionPart (x : Exact) : Exact :=
  { x with num := if 0 ≤ x.exp then 0 else x.num % 2 ^ (-x.exp).toNat }

/-- The cases of R559 for the product `x`. The low `p - 2` bits of g in double precision, where `2 ^ p ≤ |N| < 2 ^ (p + 1)` and
`p > 2`, may be in error. -/
def modResult (x : Exact) (fmt : FFormat) (chop fiv fiu : Bool) : ModResult :=
  let L := fmt.fraction
  let K := x.trueExponent
  if x.num = 0 then ⟨0#64, 0#64, false, none, 0⟩
  else if 0o377 < K + 128 then
    if fiv then ⟨chopPattern x L, 0#64, true, some 8#4, 0⟩ else ⟨0#64, 0#64, true, none, 0⟩
  else if (L : Int) < K then ⟨chopPattern x L, 0#64, false, none, 0⟩
  else if 0 < K then
    let g := fractionPart x
    let n := x.truncNat
    ⟨chopPattern ⟨x.neg, n, 1, 0⟩ L, if g.num = 0 then 0#64 else (roundTo g L chop).pack L, false, none,
      if fmt = .d ∧ g.num ≠ 0 then n.log2 - 2 else 0⟩
  else if 1 ≤ K + 128 then ⟨0#64, (roundTo x L chop).pack L, false, none, 0⟩
  else if fiu then ⟨0#64, packFloat x.neg (K + 128) (roundTo x L chop).fraction L, false, some 10#4, 0⟩
  else ⟨0#64, 0#64, false, none, 0⟩

/-- A pattern whose low `n` bits are replaced by those of a free value. -/
def freeLowBits (n : Nat) (v free : BitVec 64) : BitVec 64 :=
  v ^^^ ((v ^^^ free) &&& BitVec.ofNat 64 (2 ^ n - 1))

/-- MODF, MODD: N goes to `AC v 1`, then g to AC (R559). -/
def modFloat (ac : AcField) (fsrc : Operand) : M Unit := do
  let fmt ← look State.precision
  let v ← readFloatSource fsrc fmt
  let a ← look fun s => s.acc (acNumber ac) fmt
  let free ← draw Config.freeQuad
  update fun s =>
    let r := modResult ((Exact.ofPattern a).mul (Exact.ofPattern v)) fmt s.chop s.fiv s.fiu
    (s.setAcc (oddAc ac) fmt r.whole).storeResult (acNumber ac) fmt ⟨freeLowBits r.openBits r.part free, r.fv, r.code⟩

/-- Only the exponent field of an accumulator is written (R560). -/
def State.setExponent (s : State) (n : Fin 6) (e : BitVec 8) : State :=
  let a := s.fpu.ac.get n
  { s with fpu := { s.fpu with
      ac := s.fpu.ac.set n.val ⟨a.hi.extractLsb' 31 1 ++ e ++ a.hi.extractLsb' 0 23, a.lo⟩ n.isLt } }

/-- The state after LDEXP of the true exponent `n` (R560). -/
def State.loadExponent (s : State) (ac : Fin 6) (n : Int) : State :=
  let fmt := s.precision
  let e := BitVec.ofInt 8 (n + 0o200)
  let r : State × Bool :=
    if 0o177 < n then (if s.fiv then ((s.setExponent ac e).floatException 8#4, true) else (s.setAcc ac fmt 0#64, true))
    else if n < -0o177 then
      (if s.fiu then ((s.setExponent ac e).floatException 10#4, false) else (s.setAcc ac fmt 0#64, false))
    else (s.setExponent ac e, false)
  r.1.withFcc (floatCc (r.1.acc ac fmt) r.2 false)

/-- LDEXP (R560). -/
def loadExp (ac : AcField) (src : Operand) : M Unit := do
  let n ← readOp .word src
  update fun s => s.loadExponent (acNumber ac) n.toInt

/-- STEXP: both sets of condition codes (R561). -/
def storeExp (ac : AcField) (dst : Operand) : M Unit := do
  let p ← place .word dst
  let n ← look fun s => (exponentField (s.acc (acNumber ac) s.precision)).setWidth 16 - 0o200#16
  let wrotePs ← writePlace .word p n
  update fun s => s.withFcc (Cc.of n false false)
  setCc wrotePs (Cc.of n false false)

/-- The integer source of LDCIF and its kin: a word, or with FL set two words of which a register or an immediate supplies
the high one (R562; 45 R521, R522). -/
def readInteger (f : Operand) : M Int := do
  let long ← look fun s => s.fpu.fps.getLsbD 6
  if long then
    if f.mode = .register then
      let w ← look fun s => s.reg f.reg
      pure (w ++ 0#16).toInt
    else
      let (_, _, v) ← readLong f 2
      pure (v.extractLsb' 32 32).toInt
  else
    let w ← readOp .word f
    pure w.toInt

/-- LDCIF, LDCID, LDCLF, LDCLD (R562). -/
def loadInteger (ac : AcField) (src : Operand) : M Unit := do
  let n ← readInteger src
  let fmt ← look State.precision
  update fun s => s.storeResult (acNumber ac) fmt
    (if n = 0 then ⟨0#64, false, none⟩
     else ⟨(roundTo (Exact.ofInt n) fmt.fraction s.chop).pack fmt.fraction, false, none⟩)

/-- Write the integer of STCFI and its kin: a word, or with FL set two words of which a register or an immediate takes the
high one (R563; 45 R521, R522). -/
def writeInteger (f : Operand) (long : Bool) (r : BitVec 32) : M Bool :=
  if long then
    if f.mode = .register then fun s => .ok false (s.setReg f.reg (r.extractLsb' 16 16))
    else writeLong f 2 (r ++ 0#32)
  else writeOp .word f (r.extractLsb' 0 16)

/-- The largest integer JL of the FL setting (45 R505). -/
def integerLimit (long : Bool) : Int := if long then 2 ^ 31 - 1 else 2 ^ 15 - 1

/-- STCFI, STCFL, STCDI, STCDL: the accumulator truncated toward zero, 0 when it is out of range (R563). -/
def storeInteger (ac : AcField) (dst : Operand) : M Unit := do
  let long ← look fun s => s.fpu.fps.getLsbD 6
  let n ← look fun s => (Exact.ofPattern (s.acc (acNumber ac) s.precision)).trunc
  let ok := decide (-integerLimit long ≤ n ∧ n ≤ integerLimit long)
  let r : Int := if ok then n else 0
  let wrotePs ← writeInteger dst long (BitVec.ofInt 32 r)
  update fun s => s.withFcc ⟨decide (r < 0), decide (r = 0), false, !ok⟩
  setCc wrotePs ⟨decide (r < 0), decide (r = 0), false, !ok⟩
  update fun s => if !ok && s.fic then s.floatException 6#4 else s

/-- A D pattern brought to F: rounding up from the largest exponent is the only overflow, and its trapped result is a zero
with the sign (R564, R565). -/
def narrowResult (v : BitVec 64) (chop fiv : Bool) : FResult :=
  let r := roundTo (Exact.ofPattern v) 24 chop
  if 0o377 < r.biased then
    (if fiv then ⟨packFloat r.neg 0 (2 ^ 23) 24, true, some 8#4⟩ else ⟨0#64, true, none⟩)
  else ⟨r.pack 24, false, none⟩

/-- LDCDF, LDCFD: the source has the precision that is not current (R564). -/
def loadConvert (ac : AcField) (fsrc : Operand) : M Unit := do
  let fmt ← look State.precision
  let v ← readFloatSource fsrc fmt.other
  update fun s => s.storeResult (acNumber ac) fmt
    (if isFloatZero v then ⟨0#64, false, none⟩
     else match fmt with
       | .d => ⟨v, false, none⟩
       | .f => narrowResult v s.chop s.fiv)

/-- What STCFD or STCDF stores (R565). -/
def convertResult (a : BitVec 64) (fmt : FFormat) (chop fiv : Bool) : FResult :=
  if isFloatZero a then ⟨0#64, false, none⟩
  else match fmt with
    | .f => ⟨a, false, none⟩
    | .d => narrowResult a chop fiv

/-- STCFD, STCDF: the destination has the precision that is not current; FN and FZ are the accumulator's (R565). -/
def storeConvert (ac : AcField) (fdst : Operand) : M Unit := do
  let fmt ← look State.precision
  let r ← look fun s => convertResult (s.acc (acNumber ac) fmt) fmt s.chop s.fiv
  let p ← floatPlace fdst fmt.other
  writeFloatPlace fdst fmt.other p r.value
  update fun s => s.raiseCode r.code
  update fun s => s.withFcc (floatCc (s.acc (acNumber ac) fmt) r.fv false)

/-- CFCC (R541). -/
def execCfcc (s : State) : Host.Outcome State Fault Refusal :=
  complete (copyFloatCc) s

/-- SETF (R542). -/
def execSetf (s : State) : Host.Outcome State Fault Refusal :=
  complete (setFloatMode 0o200#16 false) s

/-- SETD (R543). -/
def execSetd (s : State) : Host.Outcome State Fault Refusal :=
  complete (setFloatMode 0o200#16 true) s

/-- SETI (R544). -/
def execSeti (s : State) : Host.Outcome State Fault Refusal :=
  complete (setFloatMode 0o100#16 false) s

/-- SETL (R545). -/
def execSetl (s : State) : Host.Outcome State Fault Refusal :=
  complete (setFloatMode 0o100#16 true) s

/-- A floating code that is no instruction: exception 2 and nothing else (45 R511). -/
def execIllegalFloat (_code : Word) (s : State) : Host.Outcome State Fault Refusal :=
  complete (update fun s => s.floatException 2#4) s

/-- LDFPS (R546). -/
def execLdfps (src : Operand) (s : State) : Host.Outcome State Fault Refusal :=
  complete (loadFps src) s

/-- STFPS (R571). -/
def execStfps (dst : Operand) (s : State) : Host.Outcome State Fault Refusal :=
  complete (storeFps dst) s

/-- STST (R547). -/
def execStst (dst : Operand) (s : State) : Host.Outcome State Fault Refusal :=
  complete (storeStatus dst) s

/-- CLRF (R548). -/
def execClrf (fdst : Operand) (s : State) : Host.Outcome State Fault Refusal :=
  complete (clearFloat fdst) s

/-- CLRD (R548). -/
def execClrd (fdst : Operand) (s : State) : Host.Outcome State Fault Refusal :=
  complete (clearFloat fdst) s

/-- TSTF (R549). -/
def execTstf (fdst : Operand) (s : State) : Host.Outcome State Fault Refusal :=
  complete (testFloat fdst) s

/-- TSTD (R549). -/
def execTstd (fdst : Operand) (s : State) : Host.Outcome State Fault Refusal :=
  complete (testFloat fdst) s

/-- ABSF (R550). -/
def execAbsf (fdst : Operand) (s : State) : Host.Outcome State Fault Refusal :=
  complete (modifyFloat absFloat fdst) s

/-- ABSD (R550). -/
def execAbsd (fdst : Operand) (s : State) : Host.Outcome State Fault Refusal :=
  complete (modifyFloat absFloat fdst) s

/-- NEGF (R551). -/
def execNegf (fdst : Operand) (s : State) : Host.Outcome State Fault Refusal :=
  complete (modifyFloat negFloat fdst) s

/-- NEGD (R551). -/
def execNegd (fdst : Operand) (s : State) : Host.Outcome State Fault Refusal :=
  complete (modifyFloat negFloat fdst) s

/-- LDF (R552). -/
def execLdf (ac : AcField) (fsrc : Operand) (s : State) : Host.Outcome State Fault Refusal :=
  complete (loadFloat ac fsrc) s

/-- LDD (R552). -/
def execLdd (ac : AcField) (fsrc : Operand) (s : State) : Host.Outcome State Fault Refusal :=
  complete (loadFloat ac fsrc) s

/-- ADDF (R554). -/
def execAddf (ac : AcField) (fsrc : Operand) (s : State) : Host.Outcome State Fault Refusal :=
  complete (arithFloat Exact.add ac fsrc) s

/-- ADDD (R554). -/
def execAddd (ac : AcField) (fsrc : Operand) (s : State) : Host.Outcome State Fault Refusal :=
  complete (arithFloat Exact.add ac fsrc) s

/-- SUBF (R555). -/
def execSubf (ac : AcField) (fsrc : Operand) (s : State) : Host.Outcome State Fault Refusal :=
  complete (arithFloat (fun a v => a.add v.negate) ac fsrc) s

/-- SUBD (R555). -/
def execSubd (ac : AcField) (fsrc : Operand) (s : State) : Host.Outcome State Fault Refusal :=
  complete (arithFloat (fun a v => a.add v.negate) ac fsrc) s

/-- MULF (R556). -/
def execMulf (ac : AcField) (fsrc : Operand) (s : State) : Host.Outcome State Fault Refusal :=
  complete (arithFloat Exact.mul ac fsrc) s

/-- MULD (R556). -/
def execMuld (ac : AcField) (fsrc : Operand) (s : State) : Host.Outcome State Fault Refusal :=
  complete (arithFloat Exact.mul ac fsrc) s

/-- DIVF (R557). -/
def execDivf (ac : AcField) (fsrc : Operand) (s : State) : Host.Outcome State Fault Refusal :=
  complete (divideFloat ac fsrc) s

/-- DIVD (R557). -/
def execDivd (ac : AcField) (fsrc : Operand) (s : State) : Host.Outcome State Fault Refusal :=
  complete (divideFloat ac fsrc) s

/-- CMPF (R558). -/
def execCmpf (ac : AcField) (fsrc : Operand) (s : State) : Host.Outcome State Fault Refusal :=
  complete (compareFloat ac fsrc) s

/-- CMPD (R558). -/
def execCmpd (ac : AcField) (fsrc : Operand) (s : State) : Host.Outcome State Fault Refusal :=
  complete (compareFloat ac fsrc) s

/-- MODF (R559). -/
def execModf (ac : AcField) (fsrc : Operand) (s : State) : Host.Outcome State Fault Refusal :=
  complete (modFloat ac fsrc) s

/-- MODD (R559). -/
def execModd (ac : AcField) (fsrc : Operand) (s : State) : Host.Outcome State Fault Refusal :=
  complete (modFloat ac fsrc) s

/-- STF (R553). -/
def execStf (ac : AcField) (fdst : Operand) (s : State) : Host.Outcome State Fault Refusal :=
  complete (storeFloat ac fdst) s

/-- STD (R553). -/
def execStd (ac : AcField) (fdst : Operand) (s : State) : Host.Outcome State Fault Refusal :=
  complete (storeFloat ac fdst) s

/-- LDEXP (R560). -/
def execLdexp (ac : AcField) (src : Operand) (s : State) : Host.Outcome State Fault Refusal :=
  complete (loadExp ac src) s

/-- STEXP (R561). -/
def execStexp (ac : AcField) (dst : Operand) (s : State) : Host.Outcome State Fault Refusal :=
  complete (storeExp ac dst) s

/-- LDCIF (R562). -/
def execLdcif (ac : AcField) (src : Operand) (s : State) : Host.Outcome State Fault Refusal :=
  complete (loadInteger ac src) s

/-- LDCLF (R562). -/
def execLdclf (ac : AcField) (src : Operand) (s : State) : Host.Outcome State Fault Refusal :=
  complete (loadInteger ac src) s

/-- LDCID (R562). -/
def execLdcid (ac : AcField) (src : Operand) (s : State) : Host.Outcome State Fault Refusal :=
  complete (loadInteger ac src) s

/-- LDCLD (R562). -/
def execLdcld (ac : AcField) (src : Operand) (s : State) : Host.Outcome State Fault Refusal :=
  complete (loadInteger ac src) s

/-- STCFI (R563). -/
def execStcfi (ac : AcField) (dst : Operand) (s : State) : Host.Outcome State Fault Refusal :=
  complete (storeInteger ac dst) s

/-- STCFL (R563). -/
def execStcfl (ac : AcField) (dst : Operand) (s : State) : Host.Outcome State Fault Refusal :=
  complete (storeInteger ac dst) s

/-- STCDI (R563). -/
def execStcdi (ac : AcField) (dst : Operand) (s : State) : Host.Outcome State Fault Refusal :=
  complete (storeInteger ac dst) s

/-- STCDL (R563). -/
def execStcdl (ac : AcField) (dst : Operand) (s : State) : Host.Outcome State Fault Refusal :=
  complete (storeInteger ac dst) s

/-- LDCDF (R564). -/
def execLdcdf (ac : AcField) (fsrc : Operand) (s : State) : Host.Outcome State Fault Refusal :=
  complete (loadConvert ac fsrc) s

/-- LDCFD (R564). -/
def execLdcfd (ac : AcField) (fsrc : Operand) (s : State) : Host.Outcome State Fault Refusal :=
  complete (loadConvert ac fsrc) s

/-- STCFD (R565). -/
def execStcfd (ac : AcField) (fdst : Operand) (s : State) : Host.Outcome State Fault Refusal :=
  complete (storeConvert ac fdst) s

/-- STCDF (R565). -/
def execStcdf (ac : AcField) (fdst : Operand) (s : State) : Host.Outcome State Fault Refusal :=
  complete (storeConvert ac fdst) s

end Sys2Proof.Machine
end

