-- ==== Sys2Proof/Machine/Misc.lean ====
section
/-! DEFINITION. Processor control, previous-space moves, MFPT and the condition-code operators (44_miscellaneous). -/

namespace Sys2Proof.Machine

/-- HALT: console ODT in kernel mode with halt option 0, an illegal HALT otherwise (R460). -/
def halt : M Unit := do
  let console ← look fun s => decide (s.curMode = kernel) && !s.plat.cfg.haltOption
  if console then update State.enterConsole else raise .illegalHalt

/-- WAIT: the waiting state in kernel mode, no operation otherwise (R462). -/
def waitInterrupt : M Unit := update fun s => if s.curMode = kernel then { s with phase := .waiting } else s

/-- RESET: in kernel mode the bus reset cycles and the clears of 10_state R93, no operation otherwise (R464). -/
def resetBus : M Unit := update fun s =>
  if s.curMode = kernel then
    let s := (s.gpWrite 0o014#8).gpWrite 0o214#8
    { s with sys := { s.sys with pirq := 0#7 }
             mmu := { s.mmu with mmr0 := s.mmu.mmr0 &&& 0o017776#16, mmr3 := 0#16 }
             flow := { s.flow with prefetchFault := true } }
  else s

/-- SPL: `PS[7:5] <- N` in kernel mode, no operation otherwise (R468). -/
def setPriorityLevel (level : BitVec 3) : M Unit := update fun s =>
  if s.curMode = kernel then s.writePs 0o340#16 (level.setWidth 16 <<< 5) else s

/-- A register in a previous-space move: R6 is the previous mode's stack pointer (R470). -/
def State.previousReg (s : State) (r : Reg) : Word := if r = .sp then s.stackPtr s.prevMode else s.reg r

/-- MFPI and MFPD: the operand from the previous mode's space, pushed on the current stack; from user to user MFPI reads D
space (R470, R471). -/
def moveFromPrevious (sp : Space) (src : Operand) : M Unit := do
  let pm ← look State.prevMode
  let v ← (if src.mode = .register then look fun s => s.previousReg src.reg
    else do
      let (_, a) ← effectiveAddress src 2
      let cur ← look State.curMode
      memRead (if cur = user ∧ pm = user then .d else sp) pm .word a)
  let wrotePs ← push v
  let k ← look State.cc
  setCc wrotePs (Cc.of v false k.c)

/-- MTPI and MTPD: the top of the current stack, stored in the previous mode's space (R472, R473). -/
def moveToPrevious (sp : Space) (dst : Operand) : M Unit := do
  let pm ← look State.prevMode
  let v ← pop
  let wrotePs ← (if dst.mode = .register then
      fun s => .ok false (if dst.reg = .sp then s.setStackPtr pm v else s.setReg dst.reg v)
    else do
      let (_, a) ← effectiveAddress dst 2
      memWrite sp pm .word a v)
  let k ← look State.cc
  setCc wrotePs (Cc.of v false k.c)

/-- The condition-code operators: set or clear the bits of the mask (R480). -/
def ccOperator (sense : Bool) (mask : BitVec 4) : M Unit := update fun s =>
  { s with ps := if sense then s.ps ||| mask.setWidth 16 else s.ps &&& ~~~(mask.setWidth 16) }

/-- HALT (R460). -/
def execHalt (s : State) : Host.Outcome State Fault Refusal :=
  complete (halt) s

/-- WAIT (R462). -/
def execWait (s : State) : Host.Outcome State Fault Refusal :=
  complete (waitInterrupt) s

/-- RESET (R464). -/
def execReset (s : State) : Host.Outcome State Fault Refusal :=
  complete (resetBus) s

/-- SPL (R468). -/
def execSpl (level : BitVec 3) (s : State) : Host.Outcome State Fault Refusal :=
  complete (setPriorityLevel level) s

/-- MFPI (R470). -/
def execMfpi (src : Operand) (s : State) : Host.Outcome State Fault Refusal :=
  complete (moveFromPrevious .i src) s

/-- MFPD (R471). -/
def execMfpd (src : Operand) (s : State) : Host.Outcome State Fault Refusal :=
  complete (moveFromPrevious .d src) s

/-- MTPI (R472). -/
def execMtpi (dst : Operand) (s : State) : Host.Outcome State Fault Refusal :=
  complete (moveToPrevious .i dst) s

/-- MTPD (R473). -/
def execMtpd (dst : Operand) (s : State) : Host.Outcome State Fault Refusal :=
  complete (moveToPrevious .d dst) s

/-- MFPT (R478). -/
def execMfpt (s : State) : Host.Outcome State Fault Refusal :=
  complete (update fun s => s.setReg .r0 5#16) s

/-- The unnamed condition-code operators (R480). -/
def execCcop (sense : Bool) (mask : BitVec 4) (s : State) : Host.Outcome State Fault Refusal :=
  complete (ccOperator sense mask) s

/-- NOP (R480). -/
def execNop (s : State) : Host.Outcome State Fault Refusal :=
  complete (ccOperator false 0#4) s

/-- CLC (R480). -/
def execClc (s : State) : Host.Outcome State Fault Refusal :=
  complete (ccOperator false 1#4) s

/-- CLV (R480). -/
def execClv (s : State) : Host.Outcome State Fault Refusal :=
  complete (ccOperator false 2#4) s

/-- CLZ (R480). -/
def execClz (s : State) : Host.Outcome State Fault Refusal :=
  complete (ccOperator false 4#4) s

/-- CLN (R480). -/
def execCln (s : State) : Host.Outcome State Fault Refusal :=
  complete (ccOperator false 8#4) s

/-- CCC (R480). -/
def execCcc (s : State) : Host.Outcome State Fault Refusal :=
  complete (ccOperator false 15#4) s

/-- SEC (R480). -/
def execSec (s : State) : Host.Outcome State Fault Refusal :=
  complete (ccOperator true 1#4) s

/-- SEV (R480). -/
def execSev (s : State) : Host.Outcome State Fault Refusal :=
  complete (ccOperator true 2#4) s

/-- SEZ (R480). -/
def execSez (s : State) : Host.Outcome State Fault Refusal :=
  complete (ccOperator true 4#4) s

/-- SEN (R480). -/
def execSen (s : State) : Host.Outcome State Fault Refusal :=
  complete (ccOperator true 8#4) s

/-- SCC (R480). -/
def execScc (s : State) : Host.Outcome State Fault Refusal :=
  complete (ccOperator true 15#4) s

end Sys2Proof.Machine
end

