-- ==== Sys2Proof/Machine/ProgramControl.lean ====
section
/-! DEFINITION. Jumps, subroutines, trap instructions, returns, MARK and CSM (43_program_control R420 to R440). -/

namespace Sys2Proof.Machine

/-- JMP: the address of the operand is the new PC (R420). -/
def jumpTo (dst : Operand) : M Unit :=
  if dst.mode = .register then raise .illegalInstruction
  else do
    let (_, a) ← effectiveAddress dst 2
    update fun s => s.jump a

/-- JSR: the destination first, then the push, then the link (R421). -/
def jumpSubroutine (r : Reg) (dst : Operand) : M Unit :=
  if dst.mode = .register then raise .illegalInstruction
  else do
    let (_, a) ← effectiveAddress dst 2
    let link ← look fun s => s.reg r
    let _ ← push link
    let sp ← look fun s => s.stackPtr s.curMode
    stackCheck sp
    update fun s => s.setReg r s.regs.pc
    update fun s => s.jump a

/-- RTS: the pop first, then PC and register together (R422). -/
def returnSubroutine (r : Reg) : M Unit := do
  let v ← pop
  update fun s => s.jump (s.reg r)
  update fun s => s.setReg r v

/-- MARK (R438). -/
def mark (count : BitVec 6) : M Unit := do
  update fun s => s.setReg .sp (s.regs.pc + 2#16 * count.setWidth 16)
  update fun s => s.jump (s.reg .r5)
  let v ← pop
  update fun s => s.setReg .r5 v

/-- RTI: a T bit it loads requests the trace trap at once (R436). -/
def returnInterrupt : M Unit := do
  returnFromTrap
  update fun s => if s.tBit then s.requestTrace else s

/-- The PS in supervisor mode that CSM makes: previous mode from the current, T clear (R440). DEDUCED: N, Z, V and C are kept, as
R440 and its example have them, against the remark of 10_state R41 that they become 0 in the new PS (log entry 32). -/
def supervisorPs (ps : Word) : Word :=
  mergeBits (mergeBits ps 0o030000#16 (ps >>> 2)) 0o140020#16 0o040000#16

/-- CSM: outside kernel mode and when MMR3 enables it (R440). DESIGN CHOICE: each push is the `Push` of R400, in the mode that is
current then; after a push that itself stored into the PS address that need not be the supervisor mode of 20_memory R143 (d) (log
entry 33). -/
def callSupervisor (src : Operand) : M Unit := do
  let enabled ← look fun s => s.mmu.mmr3.getLsbD 3 && decide (s.curMode ≠ kernel)
  if enabled then
    let arg ← readOp .word src
    let stacked ← look fun s => s.ps &&& 0o177760#16
    update fun s => s.setStackPtr supervisor (s.stackPtr s.curMode)
    update fun s => s.writePs 0o177777#16 (supervisorPs s.ps)
    let _ ← push stacked
    let pc ← look fun s => s.regs.pc
    let _ ← push pc
    let _ ← push arg
    let target ← memRead .i supervisor .word 0o10#16
    update fun s => s.jump target
  else raise .reservedInstruction

/-- JMP (R420). -/
def execJmp (dst : Operand) (s : State) : Host.Outcome State Fault Refusal :=
  complete (jumpTo dst) s

/-- JSR (R421). -/
def execJsr (r : Reg) (dst : Operand) (s : State) : Host.Outcome State Fault Refusal :=
  complete (jumpSubroutine r dst) s

/-- RTS (R422). -/
def execRts (r : Reg) (s : State) : Host.Outcome State Fault Refusal :=
  complete (returnSubroutine r) s

/-- MARK (R438). -/
def execMark (count : BitVec 6) (s : State) : Host.Outcome State Fault Refusal :=
  complete (mark count) s

/-- EMT: the low byte is for software (R431). -/
def execEmt (_code : BitVec 8) (s : State) : Host.Outcome State Fault Refusal :=
  complete (raise (.trapInstruction 0o30#16)) s

/-- TRAP: the low byte is for software (R432). -/
def execTrap (_code : BitVec 8) (s : State) : Host.Outcome State Fault Refusal :=
  complete (raise (.trapInstruction 0o34#16)) s

/-- BPT (R433). -/
def execBpt (s : State) : Host.Outcome State Fault Refusal :=
  complete (raise (.trapInstruction 0o14#16)) s

/-- IOT (R434). -/
def execIot (s : State) : Host.Outcome State Fault Refusal :=
  complete (raise (.trapInstruction 0o20#16)) s

/-- RTI (R436). -/
def execRti (s : State) : Host.Outcome State Fault Refusal :=
  complete (returnInterrupt) s

/-- RTT: it requests no trace trap (R437). -/
def execRtt (s : State) : Host.Outcome State Fault Refusal :=
  complete (returnFromTrap) s

/-- CSM (R440). -/
def execCsm (src : Operand) (s : State) : Host.Outcome State Fault Refusal :=
  complete (callSupervisor src) s

/-- A reserved code traps through `0o10` (30_encoding R220, 60 R615). -/
def execReserved (_code : Word) (s : State) : Host.Outcome State Fault Refusal :=
  complete (raise .reservedInstruction) s

end Sys2Proof.Machine
end

