-- ==== Sys2Proof/Machine/SingleOperand.lean ====
section
/-! DEFINITION. Single-operand instructions (41_single_operand). -/

namespace Sys2Proof.Machine

/-- MFPS: the low byte of the PS, sign-extended into a register (R330). -/
def moveFromPs (dst : Operand) : M Unit := do
  let p ← place .byte dst
  let v ← look fun s => s.ps.extractLsb' 0 8
  let k ← look State.cc
  let wrotePs ← writeByteExtended p v
  setCc wrotePs (Cc.of v false k.c)

/-- MTPS: `PS[3:0]`, and in kernel mode `PS[7:5]`, from the source byte (R331; 10_state R38). -/
def moveToPs (src : Operand) : M Unit := do
  let v ← readOp .byte src
  update fun s => s.writePs (if s.curMode = kernel then 0o357#16 else 0o17#16) v

/-- TSTSET: the old word goes to R0, the word gets bit 0 set; no other master comes between the read and the write (R333;
20_memory R152). -/
def testAndSet (dst : Operand) : M Unit :=
  if dst.mode = .register then raise .reservedInstruction
  else do
    let p ← place .word dst
    let old ← readPlace .word p .modify
    update fun s => s.setReg .r0 old
    let wrotePs ← lockedCycle (writePlace .word p (old ||| 1#16))
    setCc wrotePs (Cc.of old false (old.getLsbD 0))

/-- WRTLCK: R0 is stored after a locked read of the word, no other master between them (R334; 20_memory R152). -/
def writeLocked (dst : Operand) : M Unit :=
  if dst.mode = .register then raise .reservedInstruction
  else do
    let p ← place .word dst
    let _ ← readPlace .word p .modify
    let v ← look fun s => s.reg .r0
    let k ← look State.cc
    let wrotePs ← lockedCycle (writePlace .word p v)
    setCc wrotePs (Cc.of v false k.c)

/-- SWAB (R321). -/
def swapBytes (dst : Operand) : M Unit := do
  let p ← place .word dst
  let x ← readPlace .word p .modify
  let wrotePs ← writePlace .word p (swabResult x).1
  setCc wrotePs (swabResult x).2

/-- CLR (R301). -/
def execClr (dst : Operand) (s : State) : Host.Outcome State Fault Refusal :=
  complete (storeOperand .word (fun k => unaryAt .word aluClr k 0#16) dst) s

/-- CLRB (R302). -/
def execClrb (dst : Operand) (s : State) : Host.Outcome State Fault Refusal :=
  complete (storeOperand .byte (fun k => unaryAt .byte aluClr k 0#16) dst) s

/-- COM (R303). -/
def execCom (dst : Operand) (s : State) : Host.Outcome State Fault Refusal :=
  complete (modifyOperand .word aluCom dst) s

/-- COMB (R304). -/
def execComb (dst : Operand) (s : State) : Host.Outcome State Fault Refusal :=
  complete (modifyOperand .byte aluCom dst) s

/-- INC (R305). -/
def execInc (dst : Operand) (s : State) : Host.Outcome State Fault Refusal :=
  complete (modifyOperand .word aluInc dst) s

/-- INCB (R306). -/
def execIncb (dst : Operand) (s : State) : Host.Outcome State Fault Refusal :=
  complete (modifyOperand .byte aluInc dst) s

/-- DEC (R307). -/
def execDec (dst : Operand) (s : State) : Host.Outcome State Fault Refusal :=
  complete (modifyOperand .word aluDec dst) s

/-- DECB (R308). -/
def execDecb (dst : Operand) (s : State) : Host.Outcome State Fault Refusal :=
  complete (modifyOperand .byte aluDec dst) s

/-- NEG (R309). -/
def execNeg (dst : Operand) (s : State) : Host.Outcome State Fault Refusal :=
  complete (modifyOperand .word aluNeg dst) s

/-- NEGB (R310). -/
def execNegb (dst : Operand) (s : State) : Host.Outcome State Fault Refusal :=
  complete (modifyOperand .byte aluNeg dst) s

/-- TST (R311). -/
def execTst (dst : Operand) (s : State) : Host.Outcome State Fault Refusal :=
  complete (testOperand .word aluTst dst) s

/-- TSTB (R312). -/
def execTstb (dst : Operand) (s : State) : Host.Outcome State Fault Refusal :=
  complete (testOperand .byte aluTst dst) s

/-- ASR (R313). -/
def execAsr (dst : Operand) (s : State) : Host.Outcome State Fault Refusal :=
  complete (modifyOperand .word aluAsr dst) s

/-- ASRB (R314). -/
def execAsrb (dst : Operand) (s : State) : Host.Outcome State Fault Refusal :=
  complete (modifyOperand .byte aluAsr dst) s

/-- ASL (R315). -/
def execAsl (dst : Operand) (s : State) : Host.Outcome State Fault Refusal :=
  complete (modifyOperand .word aluAsl dst) s

/-- ASLB (R316). -/
def execAslb (dst : Operand) (s : State) : Host.Outcome State Fault Refusal :=
  complete (modifyOperand .byte aluAsl dst) s

/-- ROR (R317). -/
def execRor (dst : Operand) (s : State) : Host.Outcome State Fault Refusal :=
  complete (modifyOperand .word aluRor dst) s

/-- RORB (R318). -/
def execRorb (dst : Operand) (s : State) : Host.Outcome State Fault Refusal :=
  complete (modifyOperand .byte aluRor dst) s

/-- ROL (R319). -/
def execRol (dst : Operand) (s : State) : Host.Outcome State Fault Refusal :=
  complete (modifyOperand .word aluRol dst) s

/-- ROLB (R320). -/
def execRolb (dst : Operand) (s : State) : Host.Outcome State Fault Refusal :=
  complete (modifyOperand .byte aluRol dst) s

/-- SWAB (R321). -/
def execSwab (dst : Operand) (s : State) : Host.Outcome State Fault Refusal :=
  complete (swapBytes dst) s

/-- ADC (R322). -/
def execAdc (dst : Operand) (s : State) : Host.Outcome State Fault Refusal :=
  complete (modifyOperand .word aluAdc dst) s

/-- ADCB (R323). -/
def execAdcb (dst : Operand) (s : State) : Host.Outcome State Fault Refusal :=
  complete (modifyOperand .byte aluAdc dst) s

/-- SBC (R324). -/
def execSbc (dst : Operand) (s : State) : Host.Outcome State Fault Refusal :=
  complete (modifyOperand .word aluSbc dst) s

/-- SBCB (R325). -/
def execSbcb (dst : Operand) (s : State) : Host.Outcome State Fault Refusal :=
  complete (modifyOperand .byte aluSbc dst) s

/-- SXT (R326). -/
def execSxt (dst : Operand) (s : State) : Host.Outcome State Fault Refusal :=
  complete (storeOperand .word sxtResult dst) s

/-- MFPS (R330). -/
def execMfps (dst : Operand) (s : State) : Host.Outcome State Fault Refusal :=
  complete (moveFromPs dst) s

/-- MTPS (R331). -/
def execMtps (src : Operand) (s : State) : Host.Outcome State Fault Refusal :=
  complete (moveToPs src) s

/-- TSTSET (R333). -/
def execTstset (dst : Operand) (s : State) : Host.Outcome State Fault Refusal :=
  complete (testAndSet dst) s

/-- WRTLCK (R334). -/
def execWrtlck (dst : Operand) (s : State) : Host.Outcome State Fault Refusal :=
  complete (writeLocked dst) s

end Sys2Proof.Machine
end

