-- ==== Sys2Proof/Machine/Dispatch.lean ====
section
/-! DEFINITION. One arm for each instruction: its meaning, called by its full name. -/

namespace Sys2Proof.Machine

def exec (i : Instr) (s : State) : Host.Outcome State Fault Refusal :=
  match i with
  | .halt => Sys2Proof.Machine.execHalt s
  | .wait => Sys2Proof.Machine.execWait s
  | .rti => Sys2Proof.Machine.execRti s
  | .bpt => Sys2Proof.Machine.execBpt s
  | .iot => Sys2Proof.Machine.execIot s
  | .reset => Sys2Proof.Machine.execReset s
  | .rtt => Sys2Proof.Machine.execRtt s
  | .mfpt => Sys2Proof.Machine.execMfpt s
  | .reserved code => Sys2Proof.Machine.execReserved code s
  | .ccop sense mask => Sys2Proof.Machine.execCcop sense mask s
  | .nop => Sys2Proof.Machine.execNop s
  | .clc => Sys2Proof.Machine.execClc s
  | .clv => Sys2Proof.Machine.execClv s
  | .clz => Sys2Proof.Machine.execClz s
  | .cln => Sys2Proof.Machine.execCln s
  | .ccc => Sys2Proof.Machine.execCcc s
  | .sec => Sys2Proof.Machine.execSec s
  | .sev => Sys2Proof.Machine.execSev s
  | .sez => Sys2Proof.Machine.execSez s
  | .sen => Sys2Proof.Machine.execSen s
  | .scc => Sys2Proof.Machine.execScc s
  | .jmp dst => Sys2Proof.Machine.execJmp dst s
  | .jsr r dst => Sys2Proof.Machine.execJsr r dst s
  | .rts r => Sys2Proof.Machine.execRts r s
  | .spl level => Sys2Proof.Machine.execSpl level s
  | .mark count => Sys2Proof.Machine.execMark count s
  | .sob r offset => Sys2Proof.Machine.execSob r offset s
  | .emt code => Sys2Proof.Machine.execEmt code s
  | .trap code => Sys2Proof.Machine.execTrap code s
  | .br offset => Sys2Proof.Machine.execBr offset s
  | .bne offset => Sys2Proof.Machine.execBne offset s
  | .beq offset => Sys2Proof.Machine.execBeq offset s
  | .bge offset => Sys2Proof.Machine.execBge offset s
  | .blt offset => Sys2Proof.Machine.execBlt offset s
  | .bgt offset => Sys2Proof.Machine.execBgt offset s
  | .ble offset => Sys2Proof.Machine.execBle offset s
  | .bpl offset => Sys2Proof.Machine.execBpl offset s
  | .bmi offset => Sys2Proof.Machine.execBmi offset s
  | .bhi offset => Sys2Proof.Machine.execBhi offset s
  | .blos offset => Sys2Proof.Machine.execBlos offset s
  | .bvc offset => Sys2Proof.Machine.execBvc offset s
  | .bvs offset => Sys2Proof.Machine.execBvs offset s
  | .bcc offset => Sys2Proof.Machine.execBcc offset s
  | .bcs offset => Sys2Proof.Machine.execBcs offset s
  | .bhis offset => Sys2Proof.Machine.execBhis offset s
  | .blo offset => Sys2Proof.Machine.execBlo offset s
  | .swab dst => Sys2Proof.Machine.execSwab dst s
  | .clr dst => Sys2Proof.Machine.execClr dst s
  | .com dst => Sys2Proof.Machine.execCom dst s
  | .inc dst => Sys2Proof.Machine.execInc dst s
  | .dec dst => Sys2Proof.Machine.execDec dst s
  | .neg dst => Sys2Proof.Machine.execNeg dst s
  | .adc dst => Sys2Proof.Machine.execAdc dst s
  | .sbc dst => Sys2Proof.Machine.execSbc dst s
  | .tst dst => Sys2Proof.Machine.execTst dst s
  | .ror dst => Sys2Proof.Machine.execRor dst s
  | .rol dst => Sys2Proof.Machine.execRol dst s
  | .asr dst => Sys2Proof.Machine.execAsr dst s
  | .asl dst => Sys2Proof.Machine.execAsl dst s
  | .mfpi src => Sys2Proof.Machine.execMfpi src s
  | .mtpi dst => Sys2Proof.Machine.execMtpi dst s
  | .sxt dst => Sys2Proof.Machine.execSxt dst s
  | .csm src => Sys2Proof.Machine.execCsm src s
  | .tstset dst => Sys2Proof.Machine.execTstset dst s
  | .wrtlck dst => Sys2Proof.Machine.execWrtlck dst s
  | .clrb dst => Sys2Proof.Machine.execClrb dst s
  | .comb dst => Sys2Proof.Machine.execComb dst s
  | .incb dst => Sys2Proof.Machine.execIncb dst s
  | .decb dst => Sys2Proof.Machine.execDecb dst s
  | .negb dst => Sys2Proof.Machine.execNegb dst s
  | .adcb dst => Sys2Proof.Machine.execAdcb dst s
  | .sbcb dst => Sys2Proof.Machine.execSbcb dst s
  | .tstb dst => Sys2Proof.Machine.execTstb dst s
  | .rorb dst => Sys2Proof.Machine.execRorb dst s
  | .rolb dst => Sys2Proof.Machine.execRolb dst s
  | .asrb dst => Sys2Proof.Machine.execAsrb dst s
  | .aslb dst => Sys2Proof.Machine.execAslb dst s
  | .mtps src => Sys2Proof.Machine.execMtps src s
  | .mfpd src => Sys2Proof.Machine.execMfpd src s
  | .mtpd dst => Sys2Proof.Machine.execMtpd dst s
  | .mfps dst => Sys2Proof.Machine.execMfps dst s
  | .mov src dst => Sys2Proof.Machine.execMov src dst s
  | .cmp src dst => Sys2Proof.Machine.execCmp src dst s
  | .bit src dst => Sys2Proof.Machine.execBit src dst s
  | .bic src dst => Sys2Proof.Machine.execBic src dst s
  | .bis src dst => Sys2Proof.Machine.execBis src dst s
  | .add src dst => Sys2Proof.Machine.execAdd src dst s
  | .movb src dst => Sys2Proof.Machine.execMovb src dst s
  | .cmpb src dst => Sys2Proof.Machine.execCmpb src dst s
  | .bitb src dst => Sys2Proof.Machine.execBitb src dst s
  | .bicb src dst => Sys2Proof.Machine.execBicb src dst s
  | .bisb src dst => Sys2Proof.Machine.execBisb src dst s
  | .sub src dst => Sys2Proof.Machine.execSub src dst s
  | .mul r src => Sys2Proof.Machine.execMul r src s
  | .div r src => Sys2Proof.Machine.execDiv r src s
  | .ash r src => Sys2Proof.Machine.execAsh r src s
  | .ashc r src => Sys2Proof.Machine.execAshc r src s
  | .xor r dst => Sys2Proof.Machine.execXor r dst s
  | .cfcc => Sys2Proof.Machine.execCfcc s
  | .setf => Sys2Proof.Machine.execSetf s
  | .seti => Sys2Proof.Machine.execSeti s
  | .setd => Sys2Proof.Machine.execSetd s
  | .setl => Sys2Proof.Machine.execSetl s
  | .illegalFloat code => Sys2Proof.Machine.execIllegalFloat code s
  | .ldfps src => Sys2Proof.Machine.execLdfps src s
  | .stfps dst => Sys2Proof.Machine.execStfps dst s
  | .stst dst => Sys2Proof.Machine.execStst dst s
  | .clrf fdst => Sys2Proof.Machine.execClrf fdst s
  | .clrd fdst => Sys2Proof.Machine.execClrd fdst s
  | .tstf fdst => Sys2Proof.Machine.execTstf fdst s
  | .tstd fdst => Sys2Proof.Machine.execTstd fdst s
  | .absf fdst => Sys2Proof.Machine.execAbsf fdst s
  | .absd fdst => Sys2Proof.Machine.execAbsd fdst s
  | .negf fdst => Sys2Proof.Machine.execNegf fdst s
  | .negd fdst => Sys2Proof.Machine.execNegd fdst s
  | .mulf ac fsrc => Sys2Proof.Machine.execMulf ac fsrc s
  | .muld ac fsrc => Sys2Proof.Machine.execMuld ac fsrc s
  | .modf ac fsrc => Sys2Proof.Machine.execModf ac fsrc s
  | .modd ac fsrc => Sys2Proof.Machine.execModd ac fsrc s
  | .addf ac fsrc => Sys2Proof.Machine.execAddf ac fsrc s
  | .addd ac fsrc => Sys2Proof.Machine.execAddd ac fsrc s
  | .ldf ac fsrc => Sys2Proof.Machine.execLdf ac fsrc s
  | .ldd ac fsrc => Sys2Proof.Machine.execLdd ac fsrc s
  | .subf ac fsrc => Sys2Proof.Machine.execSubf ac fsrc s
  | .subd ac fsrc => Sys2Proof.Machine.execSubd ac fsrc s
  | .cmpf ac fsrc => Sys2Proof.Machine.execCmpf ac fsrc s
  | .cmpd ac fsrc => Sys2Proof.Machine.execCmpd ac fsrc s
  | .stf ac fdst => Sys2Proof.Machine.execStf ac fdst s
  | .std ac fdst => Sys2Proof.Machine.execStd ac fdst s
  | .divf ac fsrc => Sys2Proof.Machine.execDivf ac fsrc s
  | .divd ac fsrc => Sys2Proof.Machine.execDivd ac fsrc s
  | .stexp ac dst => Sys2Proof.Machine.execStexp ac dst s
  | .stcfi ac dst => Sys2Proof.Machine.execStcfi ac dst s
  | .stcfl ac dst => Sys2Proof.Machine.execStcfl ac dst s
  | .stcdi ac dst => Sys2Proof.Machine.execStcdi ac dst s
  | .stcdl ac dst => Sys2Proof.Machine.execStcdl ac dst s
  | .stcfd ac fdst => Sys2Proof.Machine.execStcfd ac fdst s
  | .stcdf ac fdst => Sys2Proof.Machine.execStcdf ac fdst s
  | .ldexp ac src => Sys2Proof.Machine.execLdexp ac src s
  | .ldcif ac src => Sys2Proof.Machine.execLdcif ac src s
  | .ldclf ac src => Sys2Proof.Machine.execLdclf ac src s
  | .ldcid ac src => Sys2Proof.Machine.execLdcid ac src s
  | .ldcld ac src => Sys2Proof.Machine.execLdcld ac src s
  | .ldcdf ac fsrc => Sys2Proof.Machine.execLdcdf ac fsrc s
  | .ldcfd ac fsrc => Sys2Proof.Machine.execLdcfd ac fsrc s

end Sys2Proof.Machine
end

