-- ==== Sys2Proof/Safety.lean ====
section
/-! DEFINITION. What the claims speak of: the invariant of the machine's state, a step that goes on, plain memory, the bytes a
store writes, the state a trap sequence leaves, and the rational value of a floating number. -/

namespace Sys2Proof.Machine

/-- What holds of every state the machine reaches: storage is in its canonical form and inside the physical address space
(20_memory R100), and every bit that the spec says reads as zero is zero (10_state R31, R48, R52, R55, R59, R62, R71). -/
structure State.Inv (s : State) : Prop where
  mem_wf : s.mem.wf = true
  mem_bound : ∀ c ∈ s.mem, c.1 < 2 ^ 22
  /-- PS bits 10:9 (R31) -/
  ps_unused : s.ps &&& 0o003000#16 = 0#16
  /-- CPUERR bits 15:8 and 1:0 (R48) -/
  cpuerr_unused : s.sys.cpuerr &&& 0o177403#16 = 0#16
  /-- CCR bits 15:11 and 8 (R62) -/
  ccr_unused : s.sys.ccr &&& 0o174400#16 = 0#16
  /-- PDR bits 7, 5:4 and 0 (R52) -/
  pdr_unused : ∀ i : Fin 48, s.mmu.pdr.get i &&& 0o000261#16 = 0#16
  /-- MMR0 bits 12:7 (R55) -/
  mmr0_unused : s.mmu.mmr0 &&& 0o017600#16 = 0#16
  /-- MMR3 bits 15:6 (R59) -/
  mmr3_unused : s.mmu.mmr3 &&& 0o177700#16 = 0#16
  /-- FPS bits 13, 12 and 4 (R71) -/
  fps_unused : s.fpu.fps &&& 0o030020#16 = 0#16

/-- The step goes on: no fault, no refusal. -/
def State.StepsOn (s : State) : Prop := ∃ t, step s = .next t

/-! ## Ends of instructions -/

/-- The end of an instruction that sets the condition codes `k`: they stand unless its destination write loaded `PS[3:0]`
itself (10_state R35). -/
def State.finish (s : State) (loadedPs : Bool) (k : Cc) : State := if loadedPs then s else s.withCc k

/-- Each of these instructions, run in `s`, ends early in the state `u`: what one of its pieces raised is taken at once, and the
"end instruction" of a floating exception leaves `u` as it is (20_memory R156; 60 R600, R611 to R616; 45 R524). -/
def State.EndsEarly (s : State) (is : List Instr) (e : Exit) (u : State) : Prop :=
  ∀ i ∈ is, exec i s = .next (match e with
    | .raise v => u.takeEvent v
    | .ended => u)

/-- N and Z of a result, V and C as given. -/
def codes {w : Nat} (r : BitVec w) (v c : Bool) : Cc := ⟨r.msb, decide (r = 0#w), v, c⟩

/-- A byte result as the low half of a word. -/
def lowByte (b : Byte) : Word := b.setWidth 16

/-! ## Plain memory -/

/-- The word at the virtual address is plain storage: it is even, relocation is off, the platform has storage there without
parity faults, it is below the I/O page, and the environment answers no cycle of this step by itself (20_memory R101, R104,
R112, R134). -/
structure State.PlainAt (s : State) (va : Word) : Prop where
  even : va.getLsbD 0 = false
  off : s.mmu.mmr0.getLsbD 0 = false
  low : va < 0o160000#16
  stored : hasStorage s.plat (va.setWidth 22) = true
  abortFree : va.setWidth 22 ∉ s.plat.parityAbortAt
  errorFree : va.setWidth 22 ∉ s.plat.parityErrorAt
  unanswered : s.answers = []

/-- The word of storage at a plain virtual address. -/
def State.word (s : State) (va : Word) : Word := s.mem.readWord va.toNat

/-- The state with the word of storage at a plain virtual address replaced. -/
def State.putWord (s : State) (va v : Word) : State := { s with mem := s.mem.writeWord va.toNat v }

/-- The bytes a store of this size at this physical address writes (20_memory R101). -/
def storedBytes (sz : Size) (a : PAddr) : List Nat :=
  match sz with
  | .byte => [a.toNat]
  | .word => [(wordAddr a).toNat, (wordAddr a).toNat + 1]

/-- The physical address that a write to a place goes to, in a state: none for a register, and none where the address does not
translate (20_memory R130, R133). -/
def Place.target (p : Place) (s : State) : Option PAddr :=
  match p with
  | .reg _ => none
  | .mem sp a =>
    match translate sp s.curMode a .write s with
    | .ok pa _ => some pa
    | .error _ _ => none

/-- Evaluating the operand steps this register: it is the operand's, in modes 2 to 5 (40 R252). -/
def StepsReg (f : Operand) (r : Reg) : Prop :=
  f.reg = r ∧ f.mode ∈ [AddrMode.autoInc, .autoIncDeferred, .autoDec, .autoDecDeferred]

/-- Between the two states no special register changed but MMR1 and the W bits of PDRs, no floating register, and of the PS only
the condition codes; the machine is in the same phase (10_state R31, R46 to R72). -/
structure SpecialsKept (s t : State) : Prop where
  sys : t.sys = s.sys
  fpu : t.fpu = s.fpu
  mmu : t.mmu = { s.mmu with mmr1 := t.mmu.mmr1, pdr := t.mmu.pdr }
  pdr : ∀ i, t.mmu.pdr.get i = s.mmu.pdr.get i ∨ t.mmu.pdr.get i = s.mmu.pdr.get i ||| 0o100#16
  ps : t.ps &&& 0o177760#16 = s.ps &&& 0o177760#16
  phase : t.phase = s.phase

/-! ## The registers inside the chip -/

/-- A group of eight page registers: from its first address, and the entry of page 0 (10_state R45, R50). -/
def pageGroup (base : PAddr) (register : Fin 48 → IntReg) (first : Nat) : List (PAddr × IntReg) :=
  (List.range 8).map fun k => (base + BitVec.ofNat 22 (2 * k), register (Fin.ofNat 48 (first + k)))

/-- The address table of 10_state R45; an entry of the page registers is 16 for each mode (kernel, supervisor, user), 8 for D
space, and the page. -/
def systemRegisterTable : List (PAddr × IntReg) :=
  [(0o17777776#22, .ps), (0o17777772#22, .pirq), (0o17777766#22, .cpuerr), (0o17777752#22, .hmr), (0o17777746#22, .ccr),
   (0o17777572#22, .mmr0), (0o17777574#22, .mmr1), (0o17777576#22, .mmr2), (0o17772516#22, .mmr3)] ++
  pageGroup 0o17777600#22 .pdr 32 ++ pageGroup 0o17777620#22 .pdr 40 ++
  pageGroup 0o17777640#22 .par 32 ++ pageGroup 0o17777660#22 .par 40 ++
  pageGroup 0o17772200#22 .pdr 16 ++ pageGroup 0o17772220#22 .pdr 24 ++
  pageGroup 0o17772240#22 .par 16 ++ pageGroup 0o17772260#22 .par 24 ++
  pageGroup 0o17772300#22 .pdr 0 ++ pageGroup 0o17772320#22 .pdr 8 ++
  pageGroup 0o17772340#22 .par 0 ++ pageGroup 0o17772360#22 .par 8

/-! ## Other bus masters -/

/-- Storage after what the environment says that other bus masters store in the next `n` bus cycles (20_memory R151). -/
def State.memAfter (s : State) (n : Nat) : Memory := s.dmaMem ((s.answers.take n).flatMap (·.dma))

/-- No other bus master stores anything in the bus cycles still to come in this step. -/
def State.Undisturbed (s : State) : Prop := ∀ x ∈ s.answers, x.dma = []

/-! ## Results and codes as the rules state them -/

/-- The one-operand word instructions that change their operand `x`, under the carry `c`: the instruction, its result, its codes
(41 R303, R305, R307, R309, R313, R315, R317, R319, R321, R322, R324). -/
def unaryWordTable (dst : Operand) (x : Word) (c : Bool) : List (Instr × Word × Cc) :=
  let asr := BitVec.ofInt 16 (x.toInt / 2)
  let asl := BitVec.ofNat 16 (x.toNat * 2)
  let ror := BitVec.ofBool c ++ x.extractLsb' 1 15
  let rol := x.extractLsb' 0 15 ++ BitVec.ofBool c
  let adc := BitVec.ofNat 16 (x.toNat + c.toNat)
  let sbc := BitVec.ofInt 16 (x.toInt - c.toNat)
  [(.com dst, ~~~x, codes (~~~x) false true),
   (.inc dst, x + 1#16, codes (x + 1#16) (decide (x = 0o077777#16)) c),
   (.dec dst, x - 1#16, codes (x - 1#16) (decide (x = 0o100000#16)) c),
   (.neg dst, -x, codes (-x) (decide (-x = 0o100000#16)) (decide (-x ≠ 0#16))),
   (.asr dst, asr, codes asr (asr.msb ^^ x.getLsbD 0) (x.getLsbD 0)),
   (.asl dst, asl, codes asl (asl.msb ^^ x.getLsbD 15) (x.getLsbD 15)),
   (.ror dst, ror, codes ror (ror.msb ^^ x.getLsbD 0) (x.getLsbD 0)),
   (.rol dst, rol, codes rol (rol.msb ^^ x.getLsbD 15) (x.getLsbD 15)),
   (.swab dst, x.extractLsb' 0 8 ++ x.extractLsb' 8 8, codes (x.extractLsb' 8 8) false false),
   (.adc dst, adc, codes adc (decide (x = 0o077777#16) && c) (decide (x = 0o177777#16) && c)),
   (.sbc dst, sbc, codes sbc (decide (x = 0o100000#16) && c) (decide (x = 0#16) && c))]

/-- The same of the byte instructions (41 R304, R306, R308, R310, R314, R316, R318, R320, R323, R325). -/
def unaryByteTable (dst : Operand) (x : Byte) (c : Bool) : List (Instr × Byte × Cc) :=
  let asr := BitVec.ofInt 8 (x.toInt / 2)
  let asl := BitVec.ofNat 8 (x.toNat * 2)
  let ror := BitVec.ofBool c ++ x.extractLsb' 1 7
  let rol := x.extractLsb' 0 7 ++ BitVec.ofBool c
  let adc := BitVec.ofNat 8 (x.toNat + c.toNat)
  let sbc := BitVec.ofInt 8 (x.toInt - c.toNat)
  [(.comb dst, ~~~x, codes (~~~x) false true),
   (.incb dst, x + 1#8, codes (x + 1#8) (decide (x = 0o177#8)) c),
   (.decb dst, x - 1#8, codes (x - 1#8) (decide (x = 0o200#8)) c),
   (.negb dst, -x, codes (-x) (decide (-x = 0o200#8)) (decide (-x ≠ 0#8))),
   (.asrb dst, asr, codes asr (asr.msb ^^ x.getLsbD 0) (x.getLsbD 0)),
   (.aslb dst, asl, codes asl (asl.msb ^^ x.getLsbD 7) (x.getLsbD 7)),
   (.rorb dst, ror, codes ror (ror.msb ^^ x.getLsbD 0) (x.getLsbD 0)),
   (.rolb dst, rol, codes rol (rol.msb ^^ x.getLsbD 7) (x.getLsbD 7)),
   (.adcb dst, adc, codes adc (decide (x = 0o177#8) && c) (decide (x = 0o377#8) && c)),
   (.sbcb dst, sbc, codes sbc (decide (x = 0o200#8) && c) (decide (x = 0#8) && c))]

/-- N, Z, V, C of the sum `x + y`: V when the signed sum does not fit, C when the unsigned sum does not (42 R355). -/
def sumCodes {w : Nat} (x y : BitVec w) : Cc :=
  codes (x + y) (decide ((x + y).toInt ≠ x.toInt + y.toInt)) (decide ((x + y).toNat ≠ x.toNat + y.toNat))

/-- N, Z, V, C of the difference `x - y`: V when the signed difference does not fit, C when there is a borrow
(42 R353, R356). -/
def differenceCodes {w : Nat} (x y : BitVec w) : Cc :=
  codes (x - y) (decide ((x - y).toInt ≠ x.toInt - y.toInt)) (decide (x.toNat < y.toNat))

/-- The two-operand word instructions that change their destination: from the source `x`, the destination `y` and the carry
(42 R355, R356, R363, R365, R367). -/
def binaryWordTable (src dst : Operand) (x y : Word) (c : Bool) : List (Instr × Word × Cc) :=
  [(.add src dst, x + y, sumCodes x y),
   (.sub src dst, y - x, differenceCodes y x),
   (.bic src dst, y &&& ~~~x, codes (y &&& ~~~x) false c),
   (.bis src dst, y ||| x, codes (y ||| x) false c)]

/-- The same of the byte instructions (42 R364, R366). -/
def binaryByteTable (src dst : Operand) (x y : Byte) (c : Bool) : List (Instr × Byte × Cc) :=
  [(.bicb src dst, y &&& ~~~x, codes (y &&& ~~~x) false c),
   (.bisb src dst, y ||| x, codes (y ||| x) false c)]

/-- The operands of a two-operand instruction (40 R266, R267): the source is evaluated completely, then the destination's
address; a register source is read only after that. The answer is the source, the destination's place and the state. -/
def DoubleOperands (sz : Size) (src dst : Operand) (s : State) (x : Word) (p : Place) (t : State) : Prop :=
  if src.mode = .register then place sz dst s = .ok p t ∧ x = regPart sz (t.reg src.reg)
  else ∃ s1, readOp sz src s = .ok x s1 ∧ place sz dst s1 = .ok p t

/-- Evaluating those operands ends early: the source, unless it is a register, or after it the destination's address
(40 R266, R268). -/
def DoubleOperandsEnd (sz : Size) (src dst : Operand) (s : State) (e : Exit) (u : State) : Prop :=
  if src.mode = .register then place sz dst s = .error e u
  else readOp sz src s = .error e u ∨ ∃ x s1, readOp sz src s = .ok x s1 ∧ place sz dst s1 = .error e u

/-- A register pair after a 32-bit result: the high word in `r`, the low word in `r | 1`; an odd register takes the low word
(42 R357, R360). -/
def State.putPair (s : State) (r : Reg) (hi lo : Word) : State :=
  match r with
  | .r0 => (s.setReg .r0 hi).setReg .r1 lo
  | .r2 => (s.setReg .r2 hi).setReg .r3 lo
  | .r4 => (s.setReg .r4 hi).setReg .r5 lo
  | .sp => (s.setReg .sp hi).setReg .pc lo
  | .r1 => s.setReg .r1 lo
  | .r3 => s.setReg .r3 lo
  | .r5 => s.setReg .r5 lo
  | .pc => s.setReg .pc lo

/-- The result and codes of shifting `x` by the signed count `n` (42 R359, R360). -/
def shifted {w : Nat} (x : BitVec w) (n : Int) : BitVec w × Cc :=
  let exact : Int := if 0 ≤ n then x.toInt * 2 ^ n.toNat else x.toInt / 2 ^ (-n).toNat
  let r := BitVec.ofInt w exact
  let lastOut : Bool :=
    if n = 0 then false
    else if 0 < n then decide (exact / 2 ^ w % 2 = 1)
    else decide (x.toInt / 2 ^ (-n - 1).toNat % 2 = 1)
  (r, codes r (decide (r.toInt ≠ exact)) lastOut)

/-- When each branch is taken, from N, Z, V, C (43 R402 to R416). -/
def branchTable (o : BitVec 8) (n z v c : Bool) : List (Instr × Bool) :=
  [(.br o, true), (.bne o, !z), (.beq o, z), (.bpl o, !n), (.bmi o, n), (.bvc o, !v), (.bvs o, v), (.bcc o, !c), (.bhis o, !c),
   (.bcs o, c), (.blo o, c), (.bge o, n == v), (.blt o, n != v), (.bgt o, !z && n == v), (.ble o, z || n != v),
   (.bhi o, !(c || z)), (.blos o, c || z)]

/-- The condition-code operators with a name: which bits they set or clear (44 R480). -/
def ccTable : List (Instr × Bool × BitVec 4) :=
  [(.nop, false, 0#4), (.clc, false, 1#4), (.clv, false, 2#4), (.clz, false, 4#4), (.cln, false, 8#4), (.ccc, false, 15#4),
   (.sec, true, 1#4), (.sev, true, 2#4), (.sez, true, 4#4), (.sen, true, 8#4), (.scc, true, 15#4)]

/-! ## Trap sequences -/

/-- The mode that the vector's PS word selects (60 R620). -/
def State.vectorMode (s : State) (v : Word) : BitVec 2 := (s.word (v + 2#16)).extractLsb' 14 2

/-- A trap sequence through `v` can run to its end in plain memory, and the HALT line does not come first (60 R620, R636). -/
structure State.TrapReady (s : State) (v : Word) : Prop where
  noHalt : s.lines.haltAtVector = false
  vectorPc : s.PlainAt v
  vectorPs : s.PlainAt (v + 2#16)
  firstPush : s.PlainAt (s.stackPtr (s.vectorMode v) - 2#16)
  secondPush : s.PlainAt (s.stackPtr (s.vectorMode v) - 4#16)

/-- The state after a trap sequence through `v` in plain memory: PC and PS from the vector, the old PS and PC on the stack of
the new mode, a yellow stack request when a kernel push went below `0o400`, nothing else (60 R620, R640; 10_state R36). -/
def State.afterTrap (s : State) (v : Word) : State :=
  let m := s.vectorMode v
  let sp := s.stackPtr m
  let w := s.word (v + 2#16)
  let t := s.setStackPtr m (sp - 4#16)
  { t with
    regs := { t.regs with pc := s.word v }
    ps := w.extractLsb' 14 2 ++ s.ps.extractLsb' 14 2 ++ w.extractLsb' 11 1 ++ 0#2 ++ w.extractLsb' 0 9
    mem := (s.mem.writeWord (sp - 2#16).toNat s.ps).writeWord (sp - 4#16).toNat s.regs.pc
    phase := .service
    flow := { s.flow with
      prefetchFault := true
      stale := none
      pendYellow := s.flow.pendYellow ||
        (decide (m = kernel) && (decide (sp - 2#16 < 0o400#16) || decide (sp - 4#16 < 0o400#16))) } }

/-- The state in which an instruction's own trap begins: its CPUERR bits are recorded and its trace request is dropped
(60 R603, R651). -/
def State.raised (s : State) (cpuerr : Word) : State :=
  { s with sys := { s.sys with cpuerr := s.sys.cpuerr ||| cpuerr }, flow := { s.flow with traceFlag := false } }

/-! ## Requests -/

/-- The maskable requests of 60 R602, first to last, each with its level: a program interrupt request is its bit of PIRQ, an
interrupt line comes with its device's answer to the acknowledge cycle. -/
def State.maskableTable (s : State) : List (BitVec 3 × Option Request) :=
  let program (bit : Nat) : Option Request := if (pirqWord s.sys.pirq).getLsbD bit then some .pirq else none
  let device (line : Irq) : Option Request :=
    match line with
    | .negated => none
    | .asserted answer => some (.irq answer)
  [(7#3, program 15), (7#3, device s.lines.irq7),
   (6#3, if s.lines.event then some .event else none), (6#3, program 14), (6#3, device s.lines.irq6),
   (5#3, program 13), (5#3, device s.lines.irq5),
   (4#3, program 12), (4#3, device s.lines.irq4),
   (3#3, program 11), (2#3, program 10), (1#3, program 9)]

/-! ## Floating values -/

/-- `val` of a pattern (45 R503, R504); the places of its fields are log entry 20, PRESUMED (93 K12). -/
def floatValue (v : BitVec 64) : ℚ :=
  if exponentField v = 0#8 then 0
  else (if v.msb then -1 else 1) * 2 ^ ((exponentField v).toNat - 128 : ℤ) * (1 / 2 + (v.extractLsb' 0 55).toNat / 2 ^ 56)

/-- The value of an exact number. -/
def Exact.value (x : Exact) : ℚ := (if x.neg then -1 else 1) * (x.num / x.den) * 2 ^ x.exp

end Sys2Proof.Machine
end

