-- ==== Sys2Proof/Certificates/Slice0/Obligations.lean ====
section
/-! DEFINITION. The statements for the provers, each from the numbered rules of spec/. -/

section Statements

open Sys2Proof Sys2Proof.Machine

/-! ## Encoding, stepping, reset -/

/-- Decoding the word of a well-formed instruction gives the instruction back, for every operand (30_encoding R203 to R223,
45 R510, R511). -/
def Obligations.DecodeInvertsEncode : Prop :=
  ∀ (fd fl : Bool) (i : Instr), i.wf = true → i.fits fd fl = true → decode fd fl (encode i) = i

/-- Every word decodes to a well-formed instruction that the FPS condition fits, and that encodes to the same word: no bit of
a word is dropped (30_encoding R219, R220; 45 R510, R511). -/
def Obligations.EncodeInvertsDecode : Prop :=
  ∀ (fd fl : Bool) (w : Word),
    encode (decode fd fl w) = w ∧ (decode fd fl w).wf = true ∧ (decode fd fl w).fits fd fl = true

/-- A few words, written from the encodings, decode to the instructions they stand for (95_test_vectors A1, B3 to B7). That
`0o176014` with FD set is STCDF is an assignment of 45 R510 that the spec marks as from general knowledge: log entry 20, PRESUMED
(K13). -/
def Obligations.SampleWordsDecode : Prop :=
  decode false false 0o005203#16 = .inc ⟨.register, .r3⟩ ∧
  decode false false 0o060204#16 = .add ⟨.register, .r2⟩ ⟨.register, .r4⟩ ∧
  decode false false 0o113737#16 = .movb ⟨.autoIncDeferred, .pc⟩ ⟨.autoIncDeferred, .pc⟩ ∧
  decode false false 0o070227#16 = .mul .r2 ⟨.autoInc, .pc⟩ ∧
  decode false false 0o001375#16 = .bne 0o375#8 ∧
  decode false false 0o004736#16 = .jsr .pc ⟨.autoIncDeferred, .sp⟩ ∧
  decode false false 0o077002#16 = .sob .r0 2#6 ∧
  decode false false 0o000263#16 = .ccop true 3#4 ∧
  decode false false 0o007100#16 = .reserved 0o007100#16 ∧
  decode false true 0o177001#16 = .ldclf .ac0 ⟨.register, .r1⟩ ∧
  decode true false 0o176014#16 = .stcdf .ac0 ⟨.deferred, .r4⟩

/-- Every step keeps the invariant: storage stays in its canonical form inside the physical address space, and every bit the
spec says reads as zero stays zero, from any state that has it, reachable or not (20_memory R100; 10_state R31, R48, R52, R55,
R59, R62, R71). The canonical form of storage is the model's own choice (log entry 2). -/
def Obligations.StepKeepsInv : Prop := ∀ s t : State, s.Inv → step s = .next t → t.Inv

/-- The state right after reset has the invariant. -/
def Obligations.ResetHasInv : Prop := State.reset.Inv

/-- When INIT is asserted the step clears PS bits 15:11, 8 and 4:0, MMR0 bits 15:13 and 0, MMR3, PIRQ, CPUERR, CCR and the
FPS and makes the power-up sequence due (10_state R90, R91, R94; 70 R741); the same registers are clear in the state that the
model calls reset. That an asserted INIT acts at the start of a step is log entry 8, DESIGN CHOICE; that PS bit 8 and the FPS are
among the cleared is the spec's own decision (D13, D32; log entry 28). -/
def Obligations.InitClearsRegisters : Prop :=
  (∀ s : State, s.sampleInputs.lines.init = true →
    ∃ t, step s = .next t ∧ t.ps &&& 0o174437#16 = 0#16 ∧ t.mmu.mmr0 &&& 0o160001#16 = 0#16 ∧ t.mmu.mmr3 = 0#16 ∧
      pirqWord t.sys.pirq = 0#16 ∧ t.sys.cpuerr = 0#16 ∧ t.sys.ccr = 0#16 ∧ t.fpu.fps = 0#16 ∧ t.phase = .powerUp) ∧
  (State.reset.ps &&& 0o174437#16 = 0#16 ∧ State.reset.mmu.mmr0 &&& 0o160001#16 = 0#16 ∧ State.reset.mmu.mmr3 = 0#16 ∧
    pirqWord State.reset.sys.pirq = 0#16 ∧ State.reset.sys.cpuerr = 0#16 ∧ State.reset.sys.ccr = 0#16 ∧
    State.reset.fpu.fps = 0#16)

/-- The power-up sequence: the first step reports the three microdiagnostic tests, the second reads the configuration and, while
power is not good, does only that; with power good it resets the bus and starts by the power-up mode: 0 from the words at `0o24` and
`0o26` in plain memory, 1 in console ODT, which signals its entry and has the PC to print in octal, 2 at `0o173000`, 3 at the boot
address, in each case with no other general-purpose cycle, nothing else to print, the prefetch pipeline empty and memory as it was;
in mode 0 another bus master may store during the vector reads, so memory is said to be as it was when none does (70 R740, R741,
R743 to R747; 61 R690, R700, R701). That these are two steps of the machine is the model's choice (log entry 6), the order of the GP
cycles the spec's own decision (D49). -/
def Obligations.PowerUpStarts : Prop :=
  ∀ s u : State, u = s.sampleInputs → u.lines.init = false →
    (u.phase = .powerUp → step s = .next { u with
      io := { u.io with gp := u.io.gp ++ [.write 0o220#8, .write 0o224#8, .write 0o230#8] }
      phase := .awaitPok }) ∧
    (u.phase = .awaitPok → u.plat.cfg.fpaPresent = false → u.plat.cfg.pok = false →
      step s = .next { u with io := { u.io with gp := u.io.gp ++ [.read 0o002#8] } }) ∧
    (u.phase = .awaitPok → u.plat.cfg.fpaPresent = false → u.plat.cfg.pok = true →
      ∃ t, step s = .next t ∧ (u.plat.cfg.powerUpMode ≠ 0#2 ∨ u.Undisturbed → t.mem = u.mem) ∧
        t.flow.stale = none ∧ t.flow.prefetchFault = true ∧
        t.io.gp = u.io.gp ++ [.read 0o002#8, .write 0o014#8, .write 0o214#8] ++
          (if u.plat.cfg.powerUpMode = 1#2 then [.write 0o234#8] else []) ∧
        (u.plat.cfg.powerUpMode ≠ 1#2 → t.io.out = u.io.out) ∧
        (u.plat.cfg.powerUpMode = 0#2 → u.PlainAt 0o24#16 → u.PlainAt 0o26#16 →
          t.phase = .service ∧ t.regs.pc = u.word 0o24#16 ∧
          t.ps = (u.word 0o26#16).extractLsb' 14 2 ++ 0#2 ++ (u.word 0o26#16).extractLsb' 11 1 ++ 0#2 ++
            (u.word 0o26#16).extractLsb' 0 9) ∧
        (u.plat.cfg.powerUpMode = 1#2 →
          t.phase = .console .entering ∧ t.priority = u.plat.cfg.priorityOdt ∧ t.regs = u.regs ∧
          ∃ digits : List Byte, t.io.out = u.io.out ++ [0o15#8, 0o12#8] ++ digits ∧ digits.length = 6 ∧
            (∀ d ∈ digits, 0o60 ≤ d.toNat ∧ d.toNat ≤ 0o67) ∧
            digits.foldl (fun n d => n * 8 + (d.toNat - 0o60)) 0 = u.regs.pc.toNat) ∧
        (u.plat.cfg.powerUpMode = 2#2 →
          t.phase = .service ∧ t.priority = u.plat.cfg.priorityBoot ∧ t.regs = { u.regs with pc := 0o173000#16 }) ∧
        (u.plat.cfg.powerUpMode = 3#2 →
          t.phase = .service ∧ t.priority = u.plat.cfg.priorityBoot ∧
          t.regs = { u.regs with pc := u.plat.cfg.bootAddress ++ 0#9 }))

/-- A step runs the decoded instruction: in the service state with nothing to service (or right after the console's P), when
the fetch gives the word `w`, the step is `exec` of what `w` decodes to under FD and FL, then the end of the instruction, which
drops the trace flag, requests the trace trap it stood for, and looks whether the prefetched word went stale: whether storage at
the PC is not what it was before the fetch, while nothing discarded that word; when the fetch raises, the step takes that event
(60 R610; 70 R762, where what a stale word leads to is the spec's own decision D50). -/
def Obligations.StepRunsInstruction : Prop :=
  ∀ (s u : State), s.sampleInputs.lines.init = false →
    ((s.sampleInputs.phase = .service ∧ s.sampleInputs.service = none ∧ u = s.sampleInputs) ∨
     (s.sampleInputs.phase = .proceed ∧ u = { s.sampleInputs with phase := .service })) →
    (∀ w s1 s2, fetchInstruction u.beginInstruction = .ok w s1 → exec (decode s1.fd s1.fl w) s1 = .next s2 →
      step s = .next { s2 with flow := { s2.flow with
        traceFlag := false
        pendTrace := s2.flow.pendTrace || s2.flow.traceFlag
        stale := staleAfter u s2 } }) ∧
    (∀ t : State, (t.flow.prefetchFault = true → staleAfter u t = none) ∧
      (t.flow.prefetchFault = false → t.PlainAt t.regs.pc → staleAfter u t =
        if u.word t.regs.pc = t.word t.regs.pc then none else some (u.word t.regs.pc))) ∧
    (∀ e s1, fetchInstruction u.beginInstruction = .error (.raise e) s1 → step s = .next (s1.takeEvent e))

/-- Fetching from plain memory gives the word at the PC; the PC advances by 2, the instruction's address and its trace flag are
kept, and MMR1 is cleared and MMR2 loaded unless MMR0 is frozen. When the prefetched word is stale the word is either the old
contents or the new, by a free value, and the word is stale no longer. A fetch that fails leaves the pipeline empty, so that no old
word reaches another address (60 R610, R650; 10_state R28, R56, R57, R58; 70 R762, the spec's own decision D50; log entry 14). That
MMR1 and MMR2 are kept with relocation off too is the spec's own decision D17 (log entry 28). -/
def Obligations.FetchFromPlainMemory : Prop :=
  (∀ s t : State, s.PlainAt s.regs.pc →
    t = { s with
      regs := { s.regs with pc := s.regs.pc + 2#16 }
      flow := { s.flow with instrAddr := s.regs.pc, traceFlag := s.ps.getLsbD 4, prefetchFault := false, stale := none }
      mmu := if s.mmu.mmr0.extractLsb' 13 3 = 0#3 then { s.mmu with mmr1 := 0#16, mmr2 := s.regs.pc } else s.mmu } →
    (s.flow.stale = none → fetchInstruction s.beginInstruction = .ok (s.word s.regs.pc) t) ∧
    (∀ old, s.flow.stale = some old → ∃ w, (w = old ∨ w = s.word s.regs.pc) ∧
      fetchInstruction s.beginInstruction = .ok w { t with draws := s.draws + 1 })) ∧
  (∀ (s t : State) (e : Event), fetchInstruction s = .error (.raise e) t →
    t.flow.stale = none ∧ t.flow.prefetchFault = true)

/-! ## Registers and memory -/

/-- PS bit 11 selects between two sets of R0 to R5, `PS[15:14]` between three stack pointers, and the PC is one: a register
written under one PS reads back under another PS that selects the same bank, and every register of the bank not selected keeps
its value (10_state R20, R22, R23). -/
def Obligations.RegistersAreBanked : Prop :=
  ∀ (s : State) (v ps : Word),
    (∀ r r', r ≠ .sp → r ≠ .pc → s.ps.getLsbD 11 ≠ ps.getLsbD 11 →
      State.reg { s.setReg r v with ps := ps } r' = State.reg { s with ps := ps } r') ∧
    (∀ r r', r ≠ .sp → r ≠ .pc → s.ps.getLsbD 11 = ps.getLsbD 11 →
      State.reg { s.setReg r v with ps := ps } r' = if r' = r then v else State.reg { s with ps := ps } r') ∧
    (∀ m r', m ≠ 2#2 → ps.extractLsb' 14 2 ≠ 2#2 →
      State.reg { s.setStackPtr m v with ps := ps } r' =
        if r' = .sp ∧ ps.extractLsb' 14 2 = m then v else State.reg { s with ps := ps } r') ∧
    (∀ r', State.reg { s.setReg .pc v with ps := ps } r' = if r' = .pc then v else State.reg { s with ps := ps } r')

/-- A word written to the PS at its address, in every mode and from every space, loads `PS[15:11]`, `PS[8:5]` and `PS[3:0]`,
and leaves T and bits 10:9 as they are; nothing else changes but the mark that the prefetched word is discarded (10_state R33).
That virtual `0o177776` reaches it with relocation off is the mapping of 20_memory R134: log entry 17, PRESUMED. -/
def Obligations.ExplicitPsWrite : Prop :=
  ∀ (s : State) (sp : Space) (m : BitVec 2) (v : Word), s.mmu.mmr0.getLsbD 0 = false →
    ∃ t, memWrite sp m .word 0o177776#16 v s = .ok true t ∧
      t = { s with ps := t.ps, flow := { s.flow with prefetchFault := true } } ∧
      ∀ i, i < 16 → t.ps.getLsbD i = if i = 4 ∨ i = 9 ∨ i = 10 then s.ps.getLsbD i else v.getLsbD i

/-- The registers inside the chip have the addresses of the table of 10_state R45, and no other address has one. Read there, a word
or one byte of it, each gives its value; the hit/miss register free bits 5:0 and zero above; MMR0 its bits 6:1 free while it is not
frozen. What a write leaves, a word or one byte of it: PIRQ takes bits 15:9 and reads with its highest request, counted from 1 at
bit 9, in bits 7:5 and 3:1; any write clears CPUERR; CCR takes bits 10:9 and 7:0; the PS all but T and bits 10:9; MMR0 bits 15:13
and 0; MMR3 bits 5:0; MMR1, MMR2 and the hit/miss register nothing; a PAR all bits, a PDR bits 15:8 and 3:1, and either clears W of
the page's PDR. A byte write changes the bits of its byte only. MMR0 bits 6:1 are free while it is not frozen, also when a write
freezes it (log entry 5). MMR1 records a step's amount in bits 7:3 and its register in bits 2:0 of the low byte, the next step's in
the high byte, nothing while MMR0 is frozen; that layout is log entry 16, PRESUMED (10_state R34, R45 to R48, R50 to R59, R62, R63;
20_memory R121, R122). The model's choices here: that the writes of MMR1, MMR2 and the hit/miss register, which store nothing, leave
the prefetched word is log entry 14, DESIGN CHOICE; that a write of the PS's odd byte does not count as loading its codes is log
entry 15, DEDUCED. The spec's own decisions here are D5, D9, D10, D11 and D17 (log entry 28). -/
def Obligations.SystemRegisterWrites : Prop :=
  ∀ (s : State) (v : Word) (i : Fin 48),
    (∀ a r, s.deviceAt a = .internal r ↔ (wordAddr a, r) ∈ systemRegisterTable) ∧
    (∀ a r, (a, r) ∈ systemRegisterTable →
      physWrite .word a v s = .ok (decide (r = .ps)) (s.writeInt r 0o177777#16 v) ∧
      physWrite .byte a v s = .ok (decide (r = .ps)) (s.writeInt r 0o377#16 v) ∧
      physWrite .byte (a + 1#22) v s = .ok false (s.writeInt r 0o177400#16 (v <<< 8)) ∧
      ∀ w t, readInt r s = .ok w t →
        physRead .word a s = .ok w t ∧ physRead .byte a s = .ok (w &&& 0o377#16) t ∧
        physRead .byte (a + 1#22) s = .ok (w >>> 8) t) ∧
    (∀ p ∈ [(IntReg.ps, s.ps), (.pirq, pirqWord s.sys.pirq), (.cpuerr, s.sys.cpuerr), (.ccr, s.sys.ccr), (.mmr1, s.mmu.mmr1),
        (.mmr2, s.mmu.mmr2), (.mmr3, s.mmu.mmr3), (.par i, s.mmu.par.get i), (.pdr i, s.mmu.pdr.get i)],
      readInt p.1 s = .ok p.2 s) ∧
    (∃ history t, readInt .hmr s = .ok history t ∧ history &&& 0o177700#16 = 0#16 ∧ t = { s with draws := t.draws }) ∧
    (let q := s.sys.pirq.toNat
     (pirqWord s.sys.pirq).toNat = q * 512 + (if q = 0 then 0 else (q.log2 + 1) * 34)) ∧
    (∀ mask ∈ [0o177777#16, 0o000377#16, 0o177400#16],
      let written (old stored : Word) : Word := (old &&& ~~~(mask &&& stored)) ||| (v &&& (mask &&& stored))
      (∃ t, t = s.writeInt .pirq mask v ∧
        let q := (written (pirqWord s.sys.pirq) 0o177000#16).toNat / 512
        (pirqWord t.sys.pirq).toNat = q * 512 + (if q = 0 then 0 else (q.log2 + 1) * 34) ∧
        t = { s with sys := { s.sys with pirq := t.sys.pirq } }) ∧
      s.writeInt .cpuerr mask v = { s with sys := { s.sys with cpuerr := 0#16 } } ∧
      s.writeInt .ccr mask v = { s with sys := { s.sys with ccr := written s.sys.ccr 0o003377#16 },
                                        flow := { s.flow with prefetchFault := true } } ∧
      s.writeInt .ps mask v = { s with ps := written s.ps 0o174757#16, flow := { s.flow with prefetchFault := true } } ∧
      s.writeInt .mmr3 mask v = { s with mmu := { s.mmu with mmr3 := written s.mmu.mmr3 0o000077#16 },
                                         flow := { s.flow with prefetchFault := true } } ∧
      s.writeInt .mmr1 mask v = s ∧ s.writeInt .mmr2 mask v = s ∧ s.writeInt .hmr mask v = s ∧
      (∃ t free, t = s.writeInt .mmr0 mask v ∧
        t.mmu.mmr0 = (if s.mmu.mmr0.extractLsb' 13 3 = 0#3 ∧ t.mmu.mmr0.extractLsb' 13 3 ≠ 0#3
          then (written s.mmu.mmr0 0o160001#16 &&& 0o177601#16) ||| (free &&& 0o176#16)
          else written s.mmu.mmr0 0o160001#16) ∧
        t = { s with mmu := { s.mmu with mmr0 := t.mmu.mmr0 }, flow := { s.flow with prefetchFault := true },
                     draws := t.draws }) ∧
      (∃ t, t = s.writeInt (.par i) mask v ∧ t.mmu.par.get i = written (s.mmu.par.get i) 0o177777#16 ∧
        t.mmu.pdr.get i = s.mmu.pdr.get i &&& 0o177677#16 ∧
        ∀ j, j ≠ i → t.mmu.par.get j = s.mmu.par.get j ∧ t.mmu.pdr.get j = s.mmu.pdr.get j) ∧
      (∃ t, t = s.writeInt (.pdr i) mask v ∧
        t.mmu.pdr.get i = written (s.mmu.pdr.get i) 0o177416#16 &&& 0o177677#16 ∧ t.mmu.par = s.mmu.par ∧
        ∀ j, j ≠ i → t.mmu.pdr.get j = s.mmu.pdr.get j)) ∧
    (∃ free t, readInt .mmr0 s = .ok (if s.mmu.mmr0.extractLsb' 13 3 = 0#3
      then (s.mmu.mmr0 &&& 0o177601#16) ||| (free &&& 0o176#16) else s.mmu.mmr0) t ∧ t = { s with draws := t.draws }) ∧
    (∀ (r : BitVec 3) (n : BitVec 5), ∃ t, t = recordMmr1 r n s ∧ t = { s with mmu := { s.mmu with mmr1 := t.mmu.mmr1 } } ∧
      t.mmu.mmr1.toNat =
        if s.mmu.mmr0.extractLsb' 13 3 ≠ 0#3 then s.mmu.mmr1.toNat
        else if s.mmu.mmr1.toNat % 256 = 0 then s.mmu.mmr1.toNat / 256 * 256 + (n.toNat * 8 + r.toNat)
        else (n.toNat * 8 + r.toNat) * 256 + s.mmu.mmr1.toNat % 256)

/-- In plain memory a word written is the word read, from any mode and space; the byte at the even address is its low half and
the byte at the odd address its high half; a byte write changes its half alone; no other byte of storage changes. A word
reference to an odd address raises the address error and does nothing else (20_memory R101, R102, R110, R130, R134). -/
def Obligations.PlainMemoryReadsBack : Prop :=
  ∀ (s : State) (sp sp' : Space) (m m' : BitVec 2) (va v : Word) (acc : Access), (s.mem.wf = true → s.PlainAt va →
    (∃ t, memWrite sp m .word va v s = .ok false t ∧ memRead sp' m' .word va acc t = .ok v t ∧
      memRead sp' m' .byte va acc t = .ok (v &&& 0o377#16) t ∧ memRead sp' m' .byte (va + 1#16) acc t = .ok (v >>> 8) t ∧
      t = { s with mem := t.mem } ∧ ∀ a, a ≠ va.toNat → a ≠ va.toNat + 1 → t.mem.read a = s.mem.read a) ∧
    (∃ t, memWrite sp m .byte va v s = .ok false t ∧
      memRead sp' m' .word va acc t = .ok ((s.word va &&& 0o177400#16) ||| (v &&& 0o377#16)) t ∧
      t = { s with mem := t.mem } ∧ ∀ a, a ≠ va.toNat → t.mem.read a = s.mem.read a) ∧
    (∃ t, memWrite sp m .byte (va + 1#16) v s = .ok false t ∧
      memRead sp' m' .word va acc t = .ok ((s.word va &&& 0o377#16) ||| (v <<< 8)) t ∧
      t = { s with mem := t.mem } ∧ ∀ a, a ≠ va.toNat + 1 → t.mem.read a = s.mem.read a)) ∧
    (va.getLsbD 0 = true →
      memRead sp m .word va acc s = .error (.raise .addressError) s ∧
      memWrite sp m .word va v s = .error (.raise .addressError) s)

/-- A write that reaches storage, through any mapping, changes the bytes of its size at the translated address and no other byte: a
word its two bytes, a byte one, over what other bus masters stored between the cycle before and this one. Of the rest of the machine
only the page's W bit may change, the environment's answer to the cycle is used up, and no condition code write is suppressed. A
word that another master stores before a cycle is in storage, where there is storage, and no other byte changes by it; without such
words nothing changes (20_memory R101, R110, R130, R138, R151, R152; 10_state R35). That a word another master stores where there is
no storage is lost, and changes nothing, is log entry 9, DESIGN CHOICE. -/
def Obligations.StoreChangesItsBytesOnly : Prop :=
  ∀ (s s1 t : State) (sp : Space) (m : BitVec 2) (sz : Size) (va v : Word) (pa : PAddr) (b : Bool),
    s.mem.wf = true → translate sp m va .write s = .ok pa s1 → s1.deviceAt pa = .storage →
    memWrite sp m sz va v s = .ok b t →
    (b = false ∧ t = { s with mmu := s1.mmu, mem := t.mem, answers := s.answers.tail } ∧
    (∀ a, a ∉ storedBytes sz pa → t.mem.read a = s.answered.mem.read a) ∧
    (sz = .byte → t.mem.read pa.toNat = v.extractLsb' 0 8) ∧
    (sz = .word → t.mem.readWord (wordAddr pa).toNat = v)) ∧
    (∀ other : List (PAddr × Word), (s.answers.headD .plain).dma = other →
      (other = [] → s.answered.mem = s.mem) ∧
      (∀ d w, other = [(d, w)] →
        (s.deviceAt d ≠ .storage → s.answered.mem = s.mem) ∧
        (s.deviceAt d = .storage → s.answered.mem.readWord (wordAddr d).toNat = w ∧
          ∀ a, a ∉ storedBytes .word d → s.answered.mem.read a = s.mem.read a)))

/-! ## Memory management -/

/-- With relocation off, the top 8K bytes of the 16-bit space are the I/O page at the top of physical memory and the rest is
the bottom of physical memory (20_memory R134). The spec marks this mapping as from general knowledge: log entry 17,
PRESUMED. -/
def Obligations.SixteenBitMapping : Prop :=
  ∀ (s : State) (sp : Space) (m : BitVec 2) (va : Word) (acc : Access), s.mmu.mmr0.getLsbD 0 = false →
    ∃ pa, translate sp m va acc s = .ok pa s ∧
      pa.toNat = if va.toNat < 0o160000 then va.toNat else 0o17600000 + va.toNat

/-- With relocation on, a reference in a legal mode to a resident page, inside its length and not a write to a read-only page,
goes to PAR times 64 plus the offset in the page: modulo 2^22 with 22-bit mapping; modulo 2^18 with 18-bit mapping, whose top
8K bytes are the I/O page. A write sets W of the page's PDR; nothing else changes (20_memory R133, R135 to R138). The clause on
18-bit mapping, with its I/O page, is log entry 17, PRESUMED. -/
def Obligations.RelocatedAddress : Prop :=
  ∀ (s : State) (sp : Space) (m : BitVec 2) (va : Word) (acc : Access) (i : Fin 48), s.mmu.mmr0.getLsbD 0 = true → m ≠ 2#2 →
    i = pageSlot m (usedSpace s.mmu.mmr3 m sp) va → pageNonResident (s.mmu.pdr.get i) = false →
    pageLengthError (s.mmu.pdr.get i) va = false → pageReadOnly (s.mmu.pdr.get i) acc = false →
    ∃ pa, translate sp m va acc s = .ok pa (if acc = .write then
        { s with mmu := { s.mmu with pdr := s.mmu.pdr.set i.val (s.mmu.pdr.get i ||| 0o100#16) i.isLt } } else s) ∧
      (s.mmu.mmr3.getLsbD 4 = true → pa.toNat = ((s.mmu.par.get i).toNat * 64 + va.toNat % 8192) % 2 ^ 22) ∧
      (s.mmu.mmr3.getLsbD 4 = false →
        let p := ((s.mmu.par.get i).toNat * 64 + va.toNat % 8192) % 2 ^ 18
        pa.toNat = if p < 0o760000 then p else 0o17000000 + p)

/-- Which PDR serves a reference: entry `16 m + 8 d + page`, where `m` is 0, 1, 2 for kernel, supervisor, user, `page` is
`va[15:13]`, and `d` is 1 for a data reference when MMR3 enables D space for the mode: bit 2 kernel, 1 supervisor, 0 user
(10_state R50, R59; 20_memory R132, R133). -/
def Obligations.PageOfReference : Prop :=
  ∀ (mmr3 va : Word),
    (pageSlot kernel (usedSpace mmr3 kernel .i) va).val = va.toNat / 8192 ∧
    (pageSlot kernel (usedSpace mmr3 kernel .d) va).val = (if mmr3.getLsbD 2 then 8 else 0) + va.toNat / 8192 ∧
    (pageSlot supervisor (usedSpace mmr3 supervisor .i) va).val = 16 + va.toNat / 8192 ∧
    (pageSlot supervisor (usedSpace mmr3 supervisor .d) va).val = 16 + (if mmr3.getLsbD 1 then 8 else 0) + va.toNat / 8192 ∧
    (pageSlot user (usedSpace mmr3 user .i) va).val = 32 + va.toNat / 8192 ∧
    (pageSlot user (usedSpace mmr3 user .d) va).val = 32 + (if mmr3.getLsbD 0 then 8 else 0) + va.toNat / 8192

/-- A reference aborts when its page is not resident (ACF 0 or 2), when its block lies beyond the page length (above it, or below it
for a downward page), or when it writes a read-only page (ACF 1). Unless MMR0 is frozen, its bits 15, 14, 13 record those three, 6:5
the mode, 4 the space whose registers were used, 3:1 the page, and its other bits stay; nothing else changes. With any of bits 15:13
set nothing changes. In the illegal mode `10` every reference aborts, with bit 15 and the mode and page recorded unless MMR0 is
frozen, and bit 14 and, for a data reference, bit 4 free (20_memory R133, R137 to R140; 10_state R55, R56; log entry 25). The spec's
own decisions here (log entry 28): the read of a read-modify-write aborts on a read-only page (D14), an aborted write does not set W
(D8), bit 4 is the group whose registers were used (D16), bit 14 in the illegal mode is free (D15). -/
def Obligations.MemoryManagementAborts : Prop :=
  ∀ (s : State) (sp : Space) (m : BitVec 2) (va : Word) (acc : Access) (pdr : Word) (nonres len ro : Bool),
    s.mmu.mmr0.getLsbD 0 = true →
    (m ≠ 2#2 → pdr = s.mmu.pdr.get (pageSlot m (usedSpace s.mmu.mmr3 m sp) va) →
    (nonres = true ↔ pdr.toNat / 2 % 4 = 0 ∨ pdr.toNat / 2 % 4 = 2) →
    (len = true ↔ if pdr.getLsbD 3 then va.toNat / 64 % 128 < pdr.toNat / 256 % 128
      else pdr.toNat / 256 % 128 < va.toNat / 64 % 128) →
    (ro = true ↔ pdr.toNat / 2 % 4 = 1 ∧ acc ≠ .read) →
    (nonres || len || ro) = true →
    ∃ t, translate sp m va acc s = .error (.raise .mmuAbort) t ∧
      (s.mmu.mmr0.extractLsb' 13 3 ≠ 0#3 → t = s) ∧
      (s.mmu.mmr0.extractLsb' 13 3 = 0#3 → t = { s with mmu := { s.mmu with
        mmr0 := BitVec.ofBool nonres ++ BitVec.ofBool len ++ BitVec.ofBool ro ++ s.mmu.mmr0.extractLsb' 7 6 ++ m ++
          BitVec.ofBool (decide (usedSpace s.mmu.mmr3 m sp = .d)) ++ va.extractLsb' 13 3 ++ s.mmu.mmr0.extractLsb' 0 1 } })) ∧
    (m = 2#2 → ∃ t, translate sp m va acc s = .error (.raise .mmuAbort) t ∧
      (s.mmu.mmr0.extractLsb' 13 3 ≠ 0#3 → t = { s with draws := t.draws }) ∧
      (s.mmu.mmr0.extractLsb' 13 3 = 0#3 → t = { s with mmu := { s.mmu with mmr0 := t.mmu.mmr0 }, draws := t.draws } ∧
        ∃ bit14 bit4 : Bool, (sp = .i → bit4 = false) ∧ t.mmu.mmr0 = 1#1 ++ BitVec.ofBool bit14 ++ 0#1 ++ s.mmu.mmr0.extractLsb' 7 6 ++ m ++
          BitVec.ofBool bit4 ++ va.extractLsb' 13 3 ++ s.mmu.mmr0.extractLsb' 0 1))

/-! ## Operands -/

/-- The address of an operand in a general register R0 to R5 for an operand of `n` bytes, in each mode: 1 the register; 2 the
register, which then steps by `n`; 4 the register after it stepped back by `n`; 3 and 5 the word at the register or at the register
less 2, which steps by 2; 6 and 7 the register plus the word at the PC, or the word there. Only the register, the PC (past an index
word) and MMR1 change; the operand is in data space (40 R252 to R258, R265; 10_state R57). The spec's own decisions here (log entry
28): addresses wrap at `2 ^ 16` (D4), an index word is not recorded in MMR1 (D10), MMR1 is kept with relocation off too (D17). -/
def Obligations.RegisterAddressing : Prop :=
  ∀ (s : State) (r : Reg) (n : Nat), r ≠ .sp → r ≠ .pc → n ≤ 8 →
    effectiveAddress ⟨.deferred, r⟩ n s = .ok (.d, s.reg r) s ∧
    effectiveAddress ⟨.autoInc, r⟩ n s =
      .ok (.d, s.reg r) (recordMmr1 r.bits (BitVec.ofNat 5 n) (s.setReg r (s.reg r + BitVec.ofNat 16 n))) ∧
    effectiveAddress ⟨.autoDec, r⟩ n s =
      .ok (.d, s.reg r - BitVec.ofNat 16 n)
        (recordMmr1 r.bits (BitVec.ofInt 5 (-n)) (s.setReg r (s.reg r - BitVec.ofNat 16 n))) ∧
    (s.PlainAt (s.reg r) → effectiveAddress ⟨.autoIncDeferred, r⟩ n s =
      .ok (.d, s.word (s.reg r)) (recordMmr1 r.bits 2#5 (s.setReg r (s.reg r + 2#16)))) ∧
    (s.PlainAt (s.reg r - 2#16) → effectiveAddress ⟨.autoDecDeferred, r⟩ n s =
      .ok (.d, s.word (s.reg r - 2#16)) (recordMmr1 r.bits (-2#5) (s.setReg r (s.reg r - 2#16)))) ∧
    (s.PlainAt s.regs.pc → effectiveAddress ⟨.index, r⟩ n s =
      .ok (.d, s.reg r + s.word s.regs.pc) (s.setPc (s.regs.pc + 2#16))) ∧
    (s.PlainAt s.regs.pc → s.PlainAt (s.reg r + s.word s.regs.pc) → effectiveAddress ⟨.indexDeferred, r⟩ n s =
      .ok (.d, s.word (s.reg r + s.word s.regs.pc)) (s.setPc (s.regs.pc + 2#16)))

/-- With the PC: mode 1 is the word at the PC, in instruction space, and leaves the PC; an immediate is that word too, and the PC
steps by 2 whatever the size; an absolute address is that word; a relative address is that word added to the PC past it, and a
relative deferred one the word there. Modes 4 and 5 take the PC back by 2, mode 4 to an operand in instruction space, mode 5 to the
word there as an address (40 R252, R258, R259). That modes 4 and 5 discard the prefetched word and the steps forward of modes 2 and
3 do not is log entry 14, DEDUCED from 70 R761. The spec's own decisions here (log entry 28): the PC and addresses wrap at `2 ^ 16`
(D4), modes 2 and 3 are recorded in MMR1 and an index word is not (D10). -/
def Obligations.PcAddressing : Prop :=
  ∀ (s : State) (n : Nat),
    effectiveAddress ⟨.deferred, .pc⟩ n s = .ok (.i, s.regs.pc) s ∧
    (s.PlainAt (s.regs.pc - 2#16) → effectiveAddress ⟨.autoDecDeferred, .pc⟩ n s = .ok (.d, s.word (s.regs.pc - 2#16))
      { recordMmr1 7#3 (-2#5) (s.setPc (s.regs.pc - 2#16)) with flow := { s.flow with prefetchFault := true } }) ∧
    effectiveAddress ⟨.autoInc, .pc⟩ n s = .ok (.i, s.regs.pc) (recordMmr1 7#3 2#5 (s.setPc (s.regs.pc + 2#16))) ∧
    effectiveAddress ⟨.autoDec, .pc⟩ n s = .ok (.i, s.regs.pc - 2#16)
      { recordMmr1 7#3 (-2#5) (s.setPc (s.regs.pc - 2#16)) with flow := { s.flow with prefetchFault := true } } ∧
    (s.PlainAt s.regs.pc → effectiveAddress ⟨.autoIncDeferred, .pc⟩ n s =
      .ok (.d, s.word s.regs.pc) (recordMmr1 7#3 2#5 (s.setPc (s.regs.pc + 2#16)))) ∧
    (s.PlainAt s.regs.pc → effectiveAddress ⟨.index, .pc⟩ n s =
      .ok (.d, s.regs.pc + 2#16 + s.word s.regs.pc) (s.setPc (s.regs.pc + 2#16))) ∧
    (s.PlainAt s.regs.pc → s.PlainAt (s.regs.pc + 2#16 + s.word s.regs.pc) → effectiveAddress ⟨.indexDeferred, .pc⟩ n s =
      .ok (.d, s.word (s.regs.pc + 2#16 + s.word s.regs.pc)) (s.setPc (s.regs.pc + 2#16)))

/-- With the SP a byte operand steps by 2 too, a floating operand by its size, and in modes 4 and 5 in kernel mode an address below
`0o400` requests the yellow stack trap; in modes 1, 2, 3, 6 and 7, and in the other modes of the processor, nothing is requested. A
push takes the SP of the current mode down by 2 and stores there; a pop reads there and takes it up by 2; MMR1 records the step (40
R252, R260, R261; 43 R400; 10_state R57). That a push and a pop are recorded in MMR1 is the spec's own decision D27, and that they
are not themselves checked as kernel stack references D23 (log entry 28). -/
def Obligations.StackAddressing : Prop :=
  ∀ (s : State) (sp : Word), sp = s.reg .sp →
    (∀ p ∈ [(1, 2), (2, 2), (4, 4), (8, 8)],
      effectiveAddress ⟨.deferred, .sp⟩ p.1 s = .ok (.d, sp) s ∧
      effectiveAddress ⟨.autoInc, .sp⟩ p.1 s =
        .ok (.d, sp) (recordMmr1 6#3 (BitVec.ofNat 5 p.2) (s.setReg .sp (sp + BitVec.ofNat 16 p.2))) ∧
      (s.PlainAt sp → effectiveAddress ⟨.autoIncDeferred, .sp⟩ p.1 s =
        .ok (.d, s.word sp) (recordMmr1 6#3 2#5 (s.setReg .sp (sp + 2#16)))) ∧
      (∃ t, effectiveAddress ⟨.autoDec, .sp⟩ p.1 s = .ok (.d, sp - BitVec.ofNat 16 p.2) t ∧
        t = { recordMmr1 6#3 (BitVec.ofInt 5 (-p.2)) (s.setReg .sp (sp - BitVec.ofNat 16 p.2)) with flow := { s.flow with
          pendYellow := s.flow.pendYellow ||
            (decide (s.curMode = kernel) && decide (sp - BitVec.ofNat 16 p.2 < 0o400#16)) } }) ∧
      (s.PlainAt (sp - 2#16) → ∃ t, effectiveAddress ⟨.autoDecDeferred, .sp⟩ p.1 s = .ok (.d, s.word (sp - 2#16)) t ∧
        t = { recordMmr1 6#3 (-2#5) (s.setReg .sp (sp - 2#16)) with flow := { s.flow with
          pendYellow := s.flow.pendYellow || (decide (s.curMode = kernel) && decide (sp - 2#16 < 0o400#16)) } }) ∧
      (s.PlainAt s.regs.pc → effectiveAddress ⟨.index, .sp⟩ p.1 s =
        .ok (.d, sp + s.word s.regs.pc) (s.setPc (s.regs.pc + 2#16))) ∧
      (s.PlainAt s.regs.pc → s.PlainAt (sp + s.word s.regs.pc) → effectiveAddress ⟨.indexDeferred, .sp⟩ p.1 s =
        .ok (.d, s.word (sp + s.word s.regs.pc)) (s.setPc (s.regs.pc + 2#16)))) ∧
    (∀ v, s.PlainAt (sp - 2#16) → push v s =
      .ok false (State.putWord (recordMmr1 6#3 (-2#5) (s.setReg .sp (sp - 2#16))) (sp - 2#16) v)) ∧
    (s.PlainAt sp → pop s = .ok (s.word sp) (recordMmr1 6#3 2#5 (s.setReg .sp (sp + 2#16))))

/-- What an operand is: in mode 0 the register, read as its word or its low byte; otherwise the address that the mode gives for an
operand of 1 byte or 2, read in plain memory as the word or byte held there, and through any mapping from the storage at the
translated address. And what evaluating and reading it leave: no bit of the PS changes, no floating register, no PAR, PDR, MMR0,
MMR2, MMR3, PIRQ, CPUERR or CCR, and no register, of either bank and of any mode, but the one the mode steps and the PC; reading
changes no register at all; storage changes only by what other bus masters store in the cycles made, none when they store nothing.
What may change besides: MMR1, a yellow stack or parity request, the mark that the PC was written, the character in RBUF, and the
counts of free values and of answers used up. When a reference aborts, the same stays as it was, and the register stays stepped;
storage has what other bus masters stored in the cycles made, the aborted one among them, and besides the above only MMR0 may
change, by an abort of the memory management unit and no other; the abort of the read itself changes nothing but MMR0, storage by
other masters, and the counts. CPUERR is recorded when the abort is taken, not before. That the register stays stepped after an odd
address too is the spec's own decision D22 (log entry 28) (40 R251, R252, R262, R268; 10_state R55; 20_memory R101, R130, R139,
R151, R156). -/
def Obligations.OperandReadFrame : Prop :=
  (∀ (sz : Size) (f : Operand) (s : State) (n : Nat), (n = match sz with | .byte => 1 | .word => 2) →
    (f.mode = .register → place sz f s = .ok (.reg f.reg) s) ∧
    (f.mode ≠ .register →
      (∀ sp a t, effectiveAddress f n s = .ok (sp, a) t → place sz f s = .ok (.mem sp a) t) ∧
      (∀ p t, place sz f s = .ok p t → ∃ sp a, p = .mem sp a ∧ effectiveAddress f n s = .ok (sp, a) t) ∧
      (∀ e t, effectiveAddress f n s = .error e t → place sz f s = .error e t)) ∧
    (∀ p t, place sz f s = .ok p t → readOp sz f s = readPlace sz p .read t) ∧
    (∀ e t, place sz f s = .error e t → readOp sz f s = .error e t)) ∧
  (∀ (acc : Access) (s : State) (r : Reg) (sp : Space) (a : Word),
    readPlace .word (.reg r) acc s = .ok (s.reg r) s ∧
    readPlace .byte (.reg r) acc s = .ok (s.reg r &&& 0o377#16) s ∧
    (s.PlainAt a →
      readPlace .word (.mem sp a) acc s = .ok (s.word a) s ∧
      readPlace .byte (.mem sp a) acc s = .ok (s.word a &&& 0o377#16) s ∧
      readPlace .byte (.mem sp (a + 1#16)) acc s = .ok (s.word a >>> 8) s) ∧
    (∀ pa u sz x t, translate sp s.curMode a acc s = .ok pa u → u.deviceAt pa = .storage →
      readPlace sz (.mem sp a) acc s = .ok x t → x = match sz with
        | .word => u.answered.mem.readWord (wordAddr pa).toNat
        | .byte => (u.answered.mem.read pa.toNat).setWidth 16)) ∧
  (∀ (s : State) (n : Nat), s.Undisturbed → s.memAfter n = s.mem) ∧
  (∀ (sz : Size) (f : Operand) (s t : State) (p : Place), place sz f s = .ok p t →
    (let stepped := if f.mode ∈ [.autoInc, .autoIncDeferred, .autoDec, .autoDecDeferred]
        then s.setReg f.reg (t.reg f.reg) else s
     ∃ n, t = { s with
      regs := { stepped.regs with pc := t.regs.pc }
      mmu := { s.mmu with mmr1 := t.mmu.mmr1 }
      mem := s.memAfter n
      flow := { s.flow with pendYellow := t.flow.pendYellow, pendParity := t.flow.pendParity
                            prefetchFault := t.flow.prefetchFault }
      answers := s.answers.drop n
      io := { s.io with rx := t.io.rx }
      draws := t.draws }) ∧
    (f.mode = .register ∨ f.mode = .deferred → t = s)) ∧
  (∀ (sz : Size) (f : Operand) (s t : State) (e : Exit), place sz f s = .error e t →
    (let stepped := if f.mode ∈ [.autoIncDeferred, .autoDecDeferred] then s.setReg f.reg (t.reg f.reg) else s
     ∃ n, t = { s with
      regs := { stepped.regs with pc := t.regs.pc }
      mmu := { s.mmu with mmr0 := t.mmu.mmr0, mmr1 := t.mmu.mmr1 }
      mem := s.memAfter n
      flow := { s.flow with pendYellow := t.flow.pendYellow, pendParity := t.flow.pendParity
                            prefetchFault := t.flow.prefetchFault }
      answers := s.answers.drop n
      io := { s.io with rx := t.io.rx }
      draws := t.draws }) ∧
    (e ≠ .raise .mmuAbort → t.mmu.mmr0 = s.mmu.mmr0) ∧
    (f.reg ≠ .pc → f.mode = .autoIncDeferred → t.reg f.reg = s.reg f.reg + 2#16) ∧
    (f.reg ≠ .pc → f.mode = .autoDecDeferred → t.reg f.reg = s.reg f.reg - 2#16)) ∧
  (∀ (sz : Size) (p : Place) (acc : Access) (s t : State) (e : Exit), readPlace sz p acc s = .error e t →
    t.ps = s.ps ∧ t.regs = s.regs ∧ (acc ≠ .write →
      (∃ n, n ≤ 1 ∧ t = { s with
        mmu := { s.mmu with mmr0 := t.mmu.mmr0 }
        mem := s.memAfter n
        answers := s.answers.drop n
        draws := t.draws }) ∧
      (e ≠ .raise .mmuAbort → t.mmu.mmr0 = s.mmu.mmr0 ∧ t.draws = s.draws))) ∧
  (∀ (sz : Size) (p : Place) (acc : Access) (s t : State) (x : Word), acc ≠ .write → readPlace sz p acc s = .ok x t →
    ∃ n, n ≤ 1 ∧ t = { s with
      mem := s.memAfter n
      flow := { s.flow with pendParity := t.flow.pendParity }
      answers := s.answers.drop n
      io := { s.io with rx := t.io.rx }
      draws := t.draws })

/-- Writing an operand: a register is written whole by a word and in its low byte by a byte, and no other register, of either
bank and of any mode, and nothing else changes but the mark that the PC was written; a place in storage has exactly the bytes of
the operand's size at the translated address changed, over what other bus masters stored before that cycle, so that what they put
in those bytes is lost; no register changes, of the MMU only the W bit of the page written through, and nothing else but that the
environment's answer is used up (40 R251, R263; 10_state R20 to R23, R52; 20_memory R101, R138, R151, R152). -/
def Obligations.OperandWriteFrame : Prop :=
  ∀ (sz : Size) (s t : State) (v : Word) (b : Bool), s.mem.wf = true →
    (∀ r, ∃ u, writePlace sz (.reg r) v s = .ok false u ∧
      u.reg r = (match sz with
        | .word => v
        | .byte => (s.reg r &&& 0o177400#16) ||| (v &&& 0o377#16)) ∧
      (∀ r', r' ≠ r → u.reg r' = s.reg r') ∧
      (∀ n : Fin 12, (∀ k : Fin 6, r.bits.toNat = k.val → n ≠ s.gprSlot k) → u.regs.gpr.get n = s.regs.gpr.get n) ∧
      (r ≠ .sp ∨ s.curMode ≠ kernel → u.regs.ksp = s.regs.ksp) ∧
      (r ≠ .sp ∨ s.curMode ≠ supervisor → u.regs.ssp = s.regs.ssp) ∧
      (r ≠ .sp ∨ s.curMode = kernel ∨ s.curMode = supervisor → u.regs.usp = s.regs.usp) ∧
      u = { s with regs := u.regs, flow := { s.flow with prefetchFault := s.flow.prefetchFault || decide (r = .pc) } }) ∧
    (∀ sp va pa, (Place.mem sp va).target s = some pa → s.deviceAt pa = .storage →
      writePlace sz (.mem sp va) v s = .ok b t →
      b = false ∧ t = { s with mmu := t.mmu, mem := t.mem, answers := s.answers.tail } ∧
      (s.mmu.mmr0.getLsbD 0 = false → t.mmu = s.mmu) ∧
      (s.mmu.mmr0.getLsbD 0 = true → ∀ i, i = pageSlot s.curMode (usedSpace s.mmu.mmr3 s.curMode sp) va →
        t.mmu = { s.mmu with pdr := s.mmu.pdr.set i.val (s.mmu.pdr.get i ||| 0o100#16) i.isLt }) ∧
      (∀ a, a ∉ storedBytes sz pa → t.mem.read a = s.answered.mem.read a) ∧
      (sz = .word → t.mem.readWord (wordAddr pa).toNat = v) ∧ (sz = .byte → t.mem.read pa.toNat = v.extractLsb' 0 8))

/-! ## One-operand instructions -/

/-- COM, INC, DEC, NEG, ASR, ASL, ROR, ROL, SWAB, ADC and SBC, and the byte forms but SWAB: the operand is read where its field
says, the result of the table replaces it, and the codes of the table are set. When evaluating, reading or writing the operand
raises, that is taken at once, with what was done until then kept. Setting the codes writes `PS[3:0]` and nothing else (41 R303 to
R325; 40 R264, R268; 10_state R31; 20_memory R156; 60 R600). The codes of COM, INC, DEC and NEG, and the operation and codes of SBC,
in both sizes, are log entry 19, PRESUMED. That the codes are set last, so that an instruction that ends early leaves them, is the
spec's own decision D21, and that a write of the PS's own codes stands D6 (log entry 28). -/
def Obligations.UnaryInstructions : Prop :=
  ∀ (dst : Operand) (s s1 s2 t : State) (p : Place) (x : Word) (b : Bool) (e : Exit),
    (∀ n z v c : Bool, s.withCc ⟨n, z, v, c⟩ = { s with
      ps := s.ps.extractLsb' 4 12 ++ BitVec.ofBool n ++ BitVec.ofBool z ++ BitVec.ofBool v ++ BitVec.ofBool c }) ∧
    (place .word dst s = .ok p s1 → readPlace .word p .modify s1 = .ok x s2 →
      ∀ row ∈ unaryWordTable dst x (s.ps.getLsbD 0), writePlace .word p row.2.1 s2 = .ok b t →
        exec row.1 s = .next (t.finish b row.2.2)) ∧
    (place .byte dst s = .ok p s1 → readPlace .byte p .modify s1 = .ok x s2 →
      ∀ row ∈ unaryByteTable dst (x.extractLsb' 0 8) (s.ps.getLsbD 0), writePlace .byte p (lowByte row.2.1) s2 = .ok b t →
        exec row.1 s = .next (t.finish b row.2.2)) ∧
    (∀ row ∈ unaryWordTable dst x (s.ps.getLsbD 0),
      (place .word dst s = .error e t → s.EndsEarly [row.1] e t) ∧
      (place .word dst s = .ok p s1 → readPlace .word p .modify s1 = .error e t → s.EndsEarly [row.1] e t) ∧
      (place .word dst s = .ok p s1 → readPlace .word p .modify s1 = .ok x s2 → writePlace .word p row.2.1 s2 = .error e t →
        s.EndsEarly [row.1] e t)) ∧
    (∀ row ∈ unaryByteTable dst (x.extractLsb' 0 8) (s.ps.getLsbD 0),
      (place .byte dst s = .error e t → s.EndsEarly [row.1] e t) ∧
      (place .byte dst s = .ok p s1 → readPlace .byte p .modify s1 = .error e t → s.EndsEarly [row.1] e t) ∧
      (place .byte dst s = .ok p s1 → readPlace .byte p .modify s1 = .ok x s2 →
        writePlace .byte p (lowByte row.2.1) s2 = .error e t → s.EndsEarly [row.1] e t))

/-- On a register COM, INC, DEC, NEG, ASR, ASL, ROR, ROL, SWAB, ADC and SBC change that register and the codes and nothing else
of the machine, and their byte forms the same with the register's high byte kept (40 R251; 41 R303 to R325). The codes of COM,
INC, DEC and NEG, and the operation and codes of SBC, are log entry 19, PRESUMED. -/
def Obligations.UnaryOnRegister : Prop :=
  ∀ (r : Reg) (s : State),
    (∀ row ∈ unaryWordTable ⟨.register, r⟩ (s.reg r) (s.ps.getLsbD 0),
      exec row.1 s = .next ((s.setReg r row.2.1).withCc row.2.2)) ∧
    (∀ row ∈ unaryByteTable ⟨.register, r⟩ ((s.reg r).extractLsb' 0 8) (s.ps.getLsbD 0),
      exec row.1 s = .next ((s.setReg r ((s.reg r &&& 0o177400#16) ||| lowByte row.2.1)).withCc row.2.2))

/-- On an operand in storage the one-operand instructions that change it leave every byte but the operand's as it was, every
register but the one its mode steps and the PC (and R0, of TSTSET), every special register and every PS bit but the codes; the
address is the one the operand's field gives and the stored bytes are those of its size. That the platform does not abort the
cycles at that address is a premise, since a trap would push, and so is that no other bus master stores during the instruction,
since its stores change storage too (40 R264; 41 R301 to R334; 20_memory R101, R151). -/
def Obligations.UnaryMemoryFrame : Prop :=
  ∀ (dst : Operand) (s s1 s2 t : State) (p : Place) (x : Word) (pa : PAddr) (sz : Size) (i : Instr), s.mem.wf = true →
    (sz = .word ∧ i ∈ [.clr dst, .sxt dst, .tstset dst, .wrtlck dst] ++ (unaryWordTable dst x (s.ps.getLsbD 0)).map (·.1) ∨
     sz = .byte ∧ i ∈ [.clrb dst, .mfps dst] ++ (unaryByteTable dst (x.extractLsb' 0 8) (s.ps.getLsbD 0)).map (·.1)) →
    place sz dst s = .ok p s1 → readPlace sz p .modify s1 = .ok x s2 →
    p.target s2 = some pa → s2.deviceAt pa = .storage →
    (s1.busAnswer pa).abort = false → (s2.busAnswer pa).abort = false → s.Undisturbed → exec i s = .next t →
    (∀ a, a ∉ storedBytes sz pa → t.mem.read a = s.mem.read a) ∧
    (∀ r, r ≠ .pc → ¬StepsReg dst r → ¬(i = .tstset dst ∧ r = .r0) → t.reg r = s.reg r) ∧ SpecialsKept s t

/-- CLR, CLRB and SXT write without reading: zero with Z set and N, V, C clear; all ones or zero by N, with Z the complement of N
and V clear. TST and TSTB set the codes of the operand and write nothing. When evaluating, reading or writing the operand raises,
that is taken at once (41 R301, R302, R311, R312, R326; 40 R268; 20_memory R156; 60 R600). The codes of CLR, CLRB and SXT are log
entry 19, PRESUMED; that CLRB keeps the whole upper byte, against the printed example of R302, is log entry 30, DEDUCED. That the
codes are set last, so that an instruction that ends early leaves them, is the spec's own decision D21, and that a write of the PS's
own codes stands D6 (log entry 28). -/
def Obligations.ClearSignExtendTest : Prop :=
  ∀ (dst : Operand) (s : State),
    (∀ p s1 b t, place .word dst s = .ok p s1 → writePlace .word p 0#16 s1 = .ok b t →
      exec (.clr dst) s = .next (t.finish b ⟨false, true, false, false⟩)) ∧
    (∀ p s1 b t, place .byte dst s = .ok p s1 → writePlace .byte p 0#16 s1 = .ok b t →
      exec (.clrb dst) s = .next (t.finish b ⟨false, true, false, false⟩)) ∧
    (∀ p s1 b t, place .word dst s = .ok p s1 →
      writePlace .word p (if s.ps.getLsbD 3 then 0o177777#16 else 0#16) s1 = .ok b t →
      exec (.sxt dst) s = .next (t.finish b ⟨s.ps.getLsbD 3, !s.ps.getLsbD 3, false, s.ps.getLsbD 0⟩)) ∧
    (∀ x s1, readOp .word dst s = .ok x s1 → exec (.tst dst) s = .next (s1.withCc (codes x false false))) ∧
    (∀ x s1, readOp .byte dst s = .ok x s1 →
      exec (.tstb dst) s = .next (s1.withCc (codes (x.extractLsb' 0 8) false false))) ∧
    (∀ e t, (place .word dst s = .error e t → s.EndsEarly [.clr dst, .sxt dst] e t) ∧
      (place .byte dst s = .error e t → s.EndsEarly [.clrb dst] e t) ∧
      (readOp .word dst s = .error e t → s.EndsEarly [.tst dst] e t) ∧
      (readOp .byte dst s = .error e t → s.EndsEarly [.tstb dst] e t) ∧
      (∀ p s1, place .word dst s = .ok p s1 → writePlace .word p 0#16 s1 = .error e t → s.EndsEarly [.clr dst] e t) ∧
      (∀ p s1, place .byte dst s = .ok p s1 → writePlace .byte p 0#16 s1 = .error e t → s.EndsEarly [.clrb dst] e t) ∧
      (∀ p s1, place .word dst s = .ok p s1 →
        writePlace .word p (if s.ps.getLsbD 3 then 0o177777#16 else 0#16) s1 = .error e t → s.EndsEarly [.sxt dst] e t))

/-- MFPS copies the low byte of the PS, sign-extended into a register, and sets N and Z from it; MTPS loads `PS[3:0]`, and in kernel
mode `PS[7:5]` too, and never T. When evaluating, reading or writing the operand raises, that is taken at once (41 R330, R331;
10_state R38; 20_memory R156; 60 R600). That the codes are set last, so that an instruction that ends early leaves them, is the
spec's own decision D21, and that a write of the PS's own codes stands D6 (log entry 28). -/
def Obligations.MoveByteOfPs : Prop :=
  ∀ (f : Operand) (s : State),
    (f.mode = .register → exec (.mfps f) s = .next ((s.setReg f.reg (BitVec.ofInt 16 (s.ps.extractLsb' 0 8).toInt)).withCc
      (codes (s.ps.extractLsb' 0 8) false (s.ps.getLsbD 0)))) ∧
    (f.mode ≠ .register → ∀ p s1 b t, place .byte f s = .ok p s1 →
      writePlace .byte p (lowByte (s.ps.extractLsb' 0 8)) s1 = .ok b t →
      exec (.mfps f) s = .next (t.finish b (codes (s.ps.extractLsb' 0 8) false (s.ps.getLsbD 0)))) ∧
    (∀ v s1, readOp .byte f s = .ok v s1 → exec (.mtps f) s = .next { s1 with
      ps := if s1.ps.extractLsb' 14 2 = 0#2 then (s1.ps &&& 0o177420#16) ||| (v &&& 0o357#16)
        else (s1.ps &&& 0o177760#16) ||| (v &&& 0o17#16)
      flow := { s1.flow with prefetchFault := true } }) ∧
    (∀ e t, (place .byte f s = .error e t → s.EndsEarly [.mfps f] e t) ∧
      (f.mode ≠ .register → ∀ p s1, place .byte f s = .ok p s1 →
        writePlace .byte p (lowByte (s.ps.extractLsb' 0 8)) s1 = .error e t → s.EndsEarly [.mfps f] e t) ∧
      (readOp .byte f s = .error e t → s.EndsEarly [.mtps f] e t))

/-- TSTSET puts the old word in R0, sets bit 0 of the word in memory and C from its old bit 0; WRTLCK stores R0; both set N and Z of
what they moved. On a register both are reserved instructions. Their write is the second cycle of a locked pair: what other bus
masters would have stored before it they store after it, so that none comes between the read and the write; when they store nothing
it is an ordinary write. When evaluating, reading or writing the operand raises, that is taken at once; R0 was then already written
by TSTSET when its write raises (41 R333, R334; 60 R600, R615; 20_memory R152, R156). That the platform honours the lock is the
spec's own decision D18 (log entry 9). That the codes are set last, so that an instruction that ends early leaves them, is the
spec's own decision D21, and that a write of the PS's own codes stands D6 (log entry 28). -/
def Obligations.InterlockedInstructions : Prop :=
  ∀ (dst : Operand) (s : State),
    (dst.mode = .register →
      exec (.tstset dst) s = .next (s.takeEvent .reservedInstruction) ∧
      exec (.wrtlck dst) s = .next (s.takeEvent .reservedInstruction)) ∧
    (dst.mode ≠ .register → ∀ p s1 x s2, place .word dst s = .ok p s1 → readPlace .word p .modify s1 = .ok x s2 →
      (∀ b t, lockedCycle (writePlace .word p (x ||| 1#16)) (s2.setReg .r0 x) = .ok b t →
        exec (.tstset dst) s = .next (t.finish b (codes x false (x.getLsbD 0)))) ∧
      (∀ b t, lockedCycle (writePlace .word p (s2.reg .r0)) s2 = .ok b t →
        exec (.wrtlck dst) s = .next (t.finish b (codes (s2.reg .r0) false (s.ps.getLsbD 0))))) ∧
    (dst.mode ≠ .register → ∀ e t, (place .word dst s = .error e t → s.EndsEarly [.tstset dst, .wrtlck dst] e t) ∧
      ∀ p s1, place .word dst s = .ok p s1 →
        (readPlace .word p .modify s1 = .error e t → s.EndsEarly [.tstset dst, .wrtlck dst] e t) ∧
        ∀ x s2, readPlace .word p .modify s1 = .ok x s2 →
          (lockedCycle (writePlace .word p (x ||| 1#16)) (s2.setReg .r0 x) = .error e t → s.EndsEarly [.tstset dst] e t) ∧
          (lockedCycle (writePlace .word p (s2.reg .r0)) s2 = .error e t → s.EndsEarly [.wrtlck dst] e t)) ∧
    (∀ (u t : State) (p : Place) (v : Word) (b : Bool), lockedCycle (writePlace .word p v) u = .ok b t →
      (u.Undisturbed → writePlace .word p v u = .ok b t) ∧
      (∀ pa, u.mem.wf = true → p.target u = some pa → u.deviceAt pa = .storage →
        b = false ∧ t = { u with mmu := t.mmu, mem := t.mem, answers := u.answers.tail } ∧
        ∃ m : Memory, m.readWord (wordAddr pa).toNat = v ∧ (∀ a, a ∉ storedBytes .word pa → m.read a = u.mem.read a) ∧
          t.mem = (State.answered { u with mem := m }).mem))

/-! ## Two-operand instructions -/

/-- ADD, SUB, BIC, BIS, and BICB, BISB: source, then destination, the result of the table stored, its codes set. XOR does the same
with a register that is read after the destination's address. When evaluating, reading or writing an operand raises, that is taken
at once (42 R355, R356, R363 to R367; 40 R266 to R268; 20_memory R156; 60 R600). That a register source, and XOR's register, is read
after the destination's address is the spec's own decision D20 (log entry 28); the codes of ADD are log entry 19, PRESUMED. That the
codes are set last, so that an instruction that ends early leaves them, is the spec's own decision D21, and that a write of the PS's
own codes stands D6 (log entry 28). -/
def Obligations.BinaryInstructions : Prop :=
  ∀ (src dst : Operand) (r : Reg) (s s1 s2 t : State) (p : Place) (x y : Word) (b : Bool) (e : Exit),
    (DoubleOperands .word src dst s x p s1 → readPlace .word p .modify s1 = .ok y s2 →
      ∀ row ∈ binaryWordTable src dst x y (s.ps.getLsbD 0), writePlace .word p row.2.1 s2 = .ok b t →
        exec row.1 s = .next (t.finish b row.2.2)) ∧
    (DoubleOperands .byte src dst s x p s1 → readPlace .byte p .modify s1 = .ok y s2 →
      ∀ row ∈ binaryByteTable src dst (x.extractLsb' 0 8) (y.extractLsb' 0 8) (s.ps.getLsbD 0),
        writePlace .byte p (lowByte row.2.1) s2 = .ok b t → exec row.1 s = .next (t.finish b row.2.2)) ∧
    (place .word dst s = .ok p s1 → readPlace .word p .modify s1 = .ok y s2 →
      writePlace .word p (y ^^^ s1.reg r) s2 = .ok b t →
      exec (.xor r dst) s = .next (t.finish b (codes (y ^^^ s1.reg r) false (s.ps.getLsbD 0)))) ∧
    (∀ row ∈ binaryWordTable src dst x y (s.ps.getLsbD 0),
      (DoubleOperandsEnd .word src dst s e t → s.EndsEarly [row.1] e t) ∧
      (DoubleOperands .word src dst s x p s1 →
        (readPlace .word p .modify s1 = .error e t → s.EndsEarly [row.1] e t) ∧
        (readPlace .word p .modify s1 = .ok y s2 → writePlace .word p row.2.1 s2 = .error e t → s.EndsEarly [row.1] e t))) ∧
    (∀ row ∈ binaryByteTable src dst (x.extractLsb' 0 8) (y.extractLsb' 0 8) (s.ps.getLsbD 0),
      (DoubleOperandsEnd .byte src dst s e t → s.EndsEarly [row.1] e t) ∧
      (DoubleOperands .byte src dst s x p s1 →
        (readPlace .byte p .modify s1 = .error e t → s.EndsEarly [row.1] e t) ∧
        (readPlace .byte p .modify s1 = .ok y s2 → writePlace .byte p (lowByte row.2.1) s2 = .error e t →
          s.EndsEarly [row.1] e t))) ∧
    (place .word dst s = .error e t → s.EndsEarly [.xor r dst] e t) ∧
    (place .word dst s = .ok p s1 →
      (readPlace .word p .modify s1 = .error e t → s.EndsEarly [.xor r dst] e t) ∧
      (readPlace .word p .modify s1 = .ok y s2 → writePlace .word p (y ^^^ s1.reg r) s2 = .error e t →
        s.EndsEarly [.xor r dst] e t))

/-- CMP and CMPB set the codes of source minus destination, BIT and BITB those of their AND; they write nothing else. When
evaluating or reading an operand raises, that is taken at once (42 R353, R354, R361, R362; 40 R266 to R268; 20_memory R156; 60
R600). That a register source is read after the destination's address is the spec's own decision D20, and that the codes are set
last D21 (log entry 28). -/
def Obligations.CompareInstructions : Prop :=
  ∀ (src dst : Operand) (s s1 t : State) (p : Place) (x y : Word) (e : Exit),
    (DoubleOperands .word src dst s x p s1 → readPlace .word p .read s1 = .ok y t →
      exec (.cmp src dst) s = .next (t.withCc (differenceCodes x y)) ∧
      exec (.bit src dst) s = .next (t.withCc (codes (x &&& y) false (s.ps.getLsbD 0)))) ∧
    (DoubleOperands .byte src dst s x p s1 → readPlace .byte p .read s1 = .ok y t →
      exec (.cmpb src dst) s = .next (t.withCc (differenceCodes (x.extractLsb' 0 8) (y.extractLsb' 0 8))) ∧
      exec (.bitb src dst) s = .next (t.withCc (codes (x.extractLsb' 0 8 &&& y.extractLsb' 0 8) false (s.ps.getLsbD 0)))) ∧
    (DoubleOperandsEnd .word src dst s e t ∨
        DoubleOperands .word src dst s x p s1 ∧ readPlace .word p .read s1 = .error e t →
      s.EndsEarly [.cmp src dst, .bit src dst] e t) ∧
    (DoubleOperandsEnd .byte src dst s e t ∨
        DoubleOperands .byte src dst s x p s1 ∧ readPlace .byte p .read s1 = .error e t →
      s.EndsEarly [.cmpb src dst, .bitb src dst] e t)

/-- MOV stores the source, MOVB its byte, and into a register MOVB writes the byte sign-extended to the whole word; N and Z are the
source's, V is clear, C stays. When evaluating or reading the source, evaluating the destination or writing it raises, that is taken
at once (42 R351, R352; 40 R266 to R268; 20_memory R156; 60 R600). That a register source is read after the destination's address is
the spec's own decision D20 (log entry 28). That the codes are set last, so that an instruction that ends early leaves them, is the
spec's own decision D21, and that a write of the PS's own codes stands D6 (log entry 28). -/
def Obligations.MoveInstructions : Prop :=
  ∀ (src dst : Operand) (s s1 t : State) (p : Place) (x : Word) (b : Bool) (e : Exit),
    (DoubleOperands .word src dst s x p s1 → writePlace .word p x s1 = .ok b t →
      exec (.mov src dst) s = .next (t.finish b (codes x false (s.ps.getLsbD 0)))) ∧
    (DoubleOperands .byte src dst s x p s1 → dst.mode ≠ .register →
      writePlace .byte p (lowByte (x.extractLsb' 0 8)) s1 = .ok b t →
      exec (.movb src dst) s = .next (t.finish b (codes (x.extractLsb' 0 8) false (s.ps.getLsbD 0)))) ∧
    (DoubleOperands .byte src dst s x p s1 → dst.mode = .register →
      exec (.movb src dst) s = .next ((s1.setReg dst.reg (BitVec.ofInt 16 (x.extractLsb' 0 8).toInt)).withCc
        (codes (x.extractLsb' 0 8) false (s.ps.getLsbD 0)))) ∧
    (DoubleOperandsEnd .word src dst s e t ∨ DoubleOperands .word src dst s x p s1 ∧ writePlace .word p x s1 = .error e t →
      s.EndsEarly [.mov src dst] e t) ∧
    (DoubleOperandsEnd .byte src dst s e t ∨ DoubleOperands .byte src dst s x p s1 ∧ dst.mode ≠ .register ∧
        writePlace .byte p (lowByte (x.extractLsb' 0 8)) s1 = .error e t →
      s.EndsEarly [.movb src dst] e t)

/-- Of the two-operand instructions that store, with the destination in storage: every byte outside the destination at the
address its field gives is unchanged, and so is every register that neither operand's mode steps (the PC apart), every special
register and every PS bit but the codes. That the platform does not abort the cycles at that address is a premise, since a trap
would push, and so is that no other bus master stores during the instruction (42 R351 to R367; 40 R263, R264; 20_memory R101,
R151). -/
def Obligations.BinaryMemoryFrame : Prop :=
  ∀ (src dst : Operand) (s s1 t : State) (p : Place) (x : Word) (pa : PAddr) (sz : Size) (i : Instr), s.mem.wf = true →
    (sz = .word ∧ i ∈ [.add src dst, .sub src dst, .bic src dst, .bis src dst, .mov src dst] ∨
     sz = .word ∧ src.mode = .register ∧ i = .xor src.reg dst ∨
     sz = .byte ∧ i ∈ [.bicb src dst, .bisb src dst, .movb src dst]) →
    DoubleOperands sz src dst s x p s1 → p.target s1 = some pa → s1.deviceAt pa = .storage →
    (∀ sp va, p = .mem sp va → sz = .word → va.getLsbD 0 = false) →
    (s1.busAnswer pa).abort = false → (s1.answered.busAnswer pa).abort = false → s.Undisturbed → exec i s = .next t →
    (∀ a, a ∉ storedBytes sz pa → t.mem.read a = s.mem.read a) ∧
    (∀ r, r ≠ .pc → ¬StepsReg src r → ¬StepsReg dst r → t.reg r = s.reg r) ∧ SpecialsKept s t

/-- MUL: the 32-bit signed product goes to the register pair, an odd register takes its low word; N and Z are the product's, V is
clear, C is set when the product is not a signed 16-bit number: that bound departs from the printed one and is the spec's own
decision D24 (log entry 28). When reading the source raises, that is taken at once (42 R357; 20_memory R156; 60 R600). -/
def Obligations.Multiply : Prop :=
  ∀ (r : Reg) (src : Operand) (s s1 : State),
    (∀ e, readOp .word src s = .error e s1 → s.EndsEarly [.mul r src] e s1) ∧
    ∀ v, readOp .word src s = .ok v s1 →
    let product := (s1.reg r).toInt * v.toInt
    let bits := BitVec.ofInt 32 product
    exec (.mul r src) s = .next ((s1.putPair r (bits.extractLsb' 16 16) (bits.extractLsb' 0 16)).withCc
      ⟨decide (product < 0), decide (product = 0), false, decide (product < -32768 ∨ 32767 < product)⟩)

/-- DIV of an even pair: the quotient truncated toward zero goes to the register, the remainder, with the sign of the dividend, to
the next one, N and Z are the quotient's, V and C clear. With a zero divisor V and C are set, with a quotient that is not a signed
16-bit number V alone; then no register changes, and N and Z are free. With an odd register number the register and the four codes
are free and nothing else changes. When reading the source raises, that is taken at once (42 R358; 20_memory R156; 60 R600; that
nothing else changes then is the spec's own decision D25, log entry 28; the free values are log entry 5; that the remainder
goes to the next register is log entry 19, PRESUMED). -/
def Obligations.Divide : Prop :=
  ∀ (r : Reg) (src : Operand) (s s1 : State),
    (∀ e, readOp .word src s = .error e s1 → s.EndsEarly [.div r src] e s1) ∧
    ∀ d, readOp .word src s = .ok d s1 →
    (r ∈ [Reg.r1, Reg.r3, Reg.r5, Reg.pc] →
      ∃ v k, exec (.div r src) s = .next ((State.setReg { s1 with draws := s1.draws + 5 } r v).withCc k)) ∧
    (r ∈ [Reg.r0, Reg.r2, Reg.r4, Reg.sp] →
    (d = 0#16 → ∃ n z, exec (.div r src) s = .next (State.withCc { s1 with draws := s1.draws + 2 } ⟨n, z, true, true⟩)) ∧
    (∀ (n q m : Int), n = (s1.reg r ++ s1.reg (oddReg r)).toInt → n = q * d.toInt + m → m.natAbs < d.toInt.natAbs →
      (0 ≤ n → 0 ≤ m) → (n ≤ 0 → m ≤ 0) →
      (q < -32768 ∨ 32767 < q → ∃ n z, exec (.div r src) s =
        .next (State.withCc { s1 with draws := s1.draws + 2 } ⟨n, z, true, false⟩)) ∧
      (-32768 ≤ q → q ≤ 32767 → exec (.div r src) s =
        .next ((s1.putPair r (BitVec.ofInt 16 q) (BitVec.ofInt 16 m)).withCc ⟨decide (q < 0), decide (q = 0), false, false⟩))))

/-- ASH and ASHC shift a register, or a register pair, by the signed number in bits 5:0 of the source: left when it is positive,
with the sign extended to the right when it is negative; V says that the shifted value no longer fits, C is the last bit shifted
out, and clear when the count is 0. An odd register is both halves of the pair and takes the low word; that, its flags and the clear
C of the count 0 are the spec's own decision D26 (log entry 28). When reading the source raises, that is taken at once (42 R359,
R360; 20_memory R156; 60 R600). -/
def Obligations.ArithmeticShifts : Prop :=
  ∀ (r : Reg) (src : Operand) (s s1 : State),
    (∀ e, readOp .word src s = .error e s1 → s.EndsEarly [.ash r src, .ashc r src] e s1) ∧
    ∀ v, readOp .word src s = .ok v s1 →
    let one := shifted (s1.reg r) (v.extractLsb' 0 6).toInt
    let two := shifted (s1.reg r ++ s1.reg (oddReg r)) (v.extractLsb' 0 6).toInt
    exec (.ash r src) s = .next ((s1.setReg r one.1).withCc one.2) ∧
    exec (.ashc r src) s = .next ((s1.putPair r (two.1.extractLsb' 16 16) (two.1.extractLsb' 0 16)).withCc two.2)

/-! ## Program control -/

/-- Every branch: when its condition holds the PC becomes the updated PC plus twice the signed offset, otherwise nothing
changes; no flag, register or byte of memory changes either way.
SOB takes 1 from the register and, when that is not 0, takes the PC back by twice its offset; no flag changes
(43 R401 to R416, R423; 30_encoding R216, R217). -/
def Obligations.BranchesAndLoops : Prop :=
  ∀ (o : BitVec 8) (r : Reg) (n : BitVec 6) (s : State),
    (∀ row ∈ branchTable o (s.ps.getLsbD 3) (s.ps.getLsbD 2) (s.ps.getLsbD 1) (s.ps.getLsbD 0),
      exec row.1 s = .next (if row.2 then
        { s with regs := { s.regs with pc := BitVec.ofInt 16 (s.regs.pc.toNat + 2 * o.toInt) },
                 flow := { s.flow with prefetchFault := true } } else s)) ∧
    exec (.sob r n) s = .next (if (s.setReg r (s.reg r - 1#16)).reg r = 0#16 then s.setReg r (s.reg r - 1#16)
      else (s.setReg r (s.reg r - 1#16)).setReg .pc
        (BitVec.ofInt 16 ((s.setReg r (s.reg r - 1#16)).regs.pc.toNat - 2 * n.toNat)))

/-- JMP takes the address of its operand as the PC. JSR computes that address, pushes the register, checks the kernel stack, puts
the PC in the register and the address in the PC. On a register operand both are illegal instructions. RTS pops the register while
its old content becomes the PC. MARK takes the SP to the PC plus twice its count, R5 to the PC, and pops R5. When evaluating the
operand, the push or the pop raises, that is taken at once (43 R420, R421, R422, R438; 40 R261, R269; 60 R600, R615; 20_memory
R156). What JSR and RTS do with the SP as their register follows the pseudocode's order and is log entry 27, DEDUCED; that RTS pops
before it writes the PC and the register is the spec's own decision D27 (log entry 28). -/
def Obligations.JumpsCallsReturns : Prop :=
  ∀ (r : Reg) (dst : Operand) (n : BitVec 6) (s : State),
    (dst.mode = .register →
      exec (.jmp dst) s = .next (s.takeEvent .illegalInstruction) ∧
      exec (.jsr r dst) s = .next (s.takeEvent .illegalInstruction)) ∧
    (dst.mode ≠ .register → ∀ sp a s1, effectiveAddress dst 2 s = .ok (sp, a) s1 →
      exec (.jmp dst) s = .next (s1.setReg .pc a) ∧
      (∀ b u, push (s1.reg r) s1 = .ok b u →
        exec (.jsr r dst) s = .next (State.setReg (State.setReg { u with flow := { u.flow with
          pendYellow := u.flow.pendYellow || (decide (u.curMode = kernel) && decide (u.reg .sp < 0o400#16)) } }
          r u.regs.pc) .pc a))) ∧
    (∀ v s1, pop s = .ok v s1 → exec (.rts r) s = .next ((s1.setReg .pc (s1.reg r)).setReg r v)) ∧
    (∀ v s1, pop ((s.setReg .sp (s.regs.pc + BitVec.ofNat 16 (2 * n.toNat))).setReg .pc (s.reg .r5)) = .ok v s1 →
      exec (.mark n) s = .next (s1.setReg .r5 v)) ∧
    (∀ e u,
      (dst.mode ≠ .register → effectiveAddress dst 2 s = .error e u → s.EndsEarly [.jmp dst, .jsr r dst] e u) ∧
      (dst.mode ≠ .register → ∀ sp a s1, effectiveAddress dst 2 s = .ok (sp, a) s1 → push (s1.reg r) s1 = .error e u →
        s.EndsEarly [.jsr r dst] e u) ∧
      (pop s = .error e u → s.EndsEarly [.rts r] e u) ∧
      (pop ((s.setReg .sp (s.regs.pc + BitVec.ofNat 16 (2 * n.toNat))).setReg .pc (s.reg .r5)) = .error e u →
        s.EndsEarly [.mark n] e u))

/-! ## Exceptions -/

/-- A trap sequence in plain memory: PC and PS from the vector, with the previous mode from the interrupted PS, and the old PS and
PC pushed on the stack of the new mode, a kernel push below `0o400` requesting the yellow stack trap; nothing else of the machine
changes (60 R620, R621, R640; 10_state R36). That PS bit 8 comes from the vector is the spec's own decision D7, and that the pushes
of the sequence are not recorded in MMR1 D27 (log entry 28). -/
def Obligations.TrapSequenceInPlainMemory : Prop :=
  ∀ (s : State) (v : Word), s.TrapReady v → s.trapSequence v .other = s.afterTrap v

/-- EMT, TRAP, BPT and IOT trap through `0o30`, `0o34`, `0o14` and `0o20`, a reserved code through `0o10`, all with CPUERR as
it was (43 R430 to R434; 30_encoding R220; 60 R601, R615). -/
def Obligations.TrapInstructions : Prop :=
  ∀ (s : State) (n : BitVec 8) (w : Word),
    ∀ row ∈ [(Instr.emt n, 0o30#16), (.trap n, 0o34#16), (.bpt, 0o14#16), (.iot, 0o20#16), (.reserved w, 0o10#16)],
      s.TrapReady row.2 → exec row.1 s = .next ((s.raised 0#16).afterTrap row.2)

/-- What each abort or trap of an instruction records and where it goes, in plain memory: address error bit 6, non-existent memory
bit 5, I/O timeout bit 4 and illegal HALT bit 7 of CPUERR through `0o4`, an illegal instruction through `0o4`, a reserved one
through `0o10`, a parity abort through `0o114`, an MMU abort through `0o250`, these with CPUERR as it was; the trace request of the
instruction is dropped. And what taking a pending request does: parity goes through `0o114`, trace `0o14`, floating `0o244`, each no
longer pending; power fail through `0o24` after GP code `0o140`, acknowledged; the yellow stack trap through `0o4` with CPUERR bit
3, its own pushes not checked; a program interrupt request through `0o240`, the event line through `0o100` after GP code `0o100`, an
interrupt line through its device's vector, these still pending. With HALT at the vector read console ODT is entered instead and
every request stays (60 R601, R603, R614, R631 to R636, R640, R650, R651). The spec's own decisions here (log entry 28): an abort
drops the trace request of its instruction (D42), a request stays with PC and PS as before at HALT (D43), the yellow stack trap's
pushes are not checked (D45), the general-purpose write comes before the sequence and PWRF is taken once (D46), the floating trap
pushes the PC of the next instruction (D36). That a trace trap already pending is kept through an abort is log entry 13, DEDUCED. -/
def Obligations.EventsTakenInPlainMemory : Prop :=
  ∀ (s : State),
    (∀ row ∈ [(Event.addressError, 0o4#16, 0o100#16), (.nonExistentMemory, 0o4#16, 0o40#16),
        (.ioTimeout, 0o4#16, 0o20#16), (.illegalHalt, 0o4#16, 0o200#16), (.illegalInstruction, 0o4#16, 0#16),
        (.reservedInstruction, 0o10#16, 0#16), (.parityAbort, 0o114#16, 0#16), (.mmuAbort, 0o250#16, 0#16)],
      s.TrapReady row.2.1 → s.takeEvent row.1 = (s.raised row.2.2).afterTrap row.2.1) ∧
    (∀ (vector : Word), ∀ row ∈ [
        (Request.parity, 0o114#16, { s with flow := { s.flow with pendParity := false } }),
        (.trace, 0o14#16, { s with flow := { s.flow with pendTrace := false } }),
        (.powerFail, 0o24#16, { s with io := { s.io with gp := s.io.gp ++ [.write 0o140#8] }
                                       flow := { s.flow with pwrfAcked := true } }),
        (.floating, 0o244#16, { s with flow := { s.flow with pendFp := false } }),
        (.pirq, 0o240#16, s), (.irq (some vector), vector, s),
        (.event, 0o100#16, { s with io := { s.io with gp := s.io.gp ++ [.write 0o100#8] } })],
      s.TrapReady row.2.1 → s.takeRequest row.1 = State.afterTrap row.2.2 row.2.1) ∧
    (s.TrapReady 0o4#16 → ∃ t, t = State.afterTrap { s with sys := { s.sys with cpuerr := s.sys.cpuerr ||| 0o10#16 } } 0o4#16 ∧
      s.takeRequest .yellow = { t with flow := { t.flow with pendYellow := false } }) ∧
    (∀ r, s.lines.haltAtVector = true → ∃ t, s.takeRequest r = t ∧ t.phase = .console .entering ∧ t.regs = s.regs ∧
      t.ps = s.ps ∧ t.mem = s.mem ∧ t.flow = s.flow ∧ t.lines = s.lines ∧ t.sys.pirq = s.sys.pirq)

/-- The red stack abort of an odd kernel SP: when a kernel push of a trap sequence goes to an odd address, CPUERR gets bits 6 and
2, the PC and PS come from `0o4` and `0o6`, the old PS and PC go to words 2 and 0, and the kernel SP is 0 (60 R641). Which words
are saved, where, and the SP of 0 are the spec's own reading (D44; log entry 28). A kernel push that an MMU abort or a bus error
ends is the same sequence and is not part of this statement. -/
def Obligations.RedStackAbort : Prop :=
  ∀ (s : State) (v : Word), s.mem.wf = true → s.lines.haltAtVector = false → s.PlainAt v → s.PlainAt (v + 2#16) →
    s.PlainAt 0#16 → s.PlainAt 2#16 → s.PlainAt 4#16 → s.PlainAt 6#16 →
    s.vectorMode v = kernel → (s.regs.ksp - 2#16).getLsbD 0 = true →
    ∃ t, t = s.trapSequence v .other ∧ t.sys = { s.sys with cpuerr := s.sys.cpuerr ||| 0o104#16 } ∧
      t.regs = { s.regs with ksp := 0#16, pc := s.word 0o4#16 } ∧ t.ps = vectorPs (s.word 0o6#16) s.ps ∧
      t.word 2#16 = s.ps ∧ t.word 0#16 = s.regs.pc ∧ (∀ a, 4 ≤ a → t.mem.read a = s.mem.read a)

/-- RTI and RTT in plain memory pop the PC and the PS from the stack of the mode that executes them: in kernel mode the whole PS,
otherwise the codes and T, with mode and register-set bits only set; RTI also requests the trace trap when it loads T (43 R436,
R437; 10_state R37; 60 R650). When a pop raises, that is taken at once, with neither PC nor PS loaded (20_memory R156; 60 R600). The
spec's own decisions here (log entry 28): PS bit 8 is loaded in kernel mode and kept outside, and the illegal mode 10 is not kernel
(D7); both pops are recorded in MMR1 (D27); RTI's request (D28). -/
def Obligations.ReturnsFromTraps : Prop :=
  ∀ (s : State), (∀ e u,
      (pop s = .error e u → s.EndsEarly [.rti, .rtt] e u) ∧
      (∀ v s1, pop s = .ok v s1 → pop s1 = .error e u → s.EndsEarly [.rti, .rtt] e u)) ∧
    ∀ (sp w : Word), sp = s.reg .sp → s.PlainAt sp → s.PlainAt (sp + 2#16) → w = s.word (sp + 2#16) →
    let ps := if s.ps.extractLsb' 14 2 = 0#2 then w &&& 0o174777#16
      else ((s.ps ||| (w &&& 0o174000#16)) &&& 0o177740#16) ||| (w &&& 0o37#16)
    let t := recordMmr1 6#3 2#5 (recordMmr1 6#3 2#5 (s.setReg .sp (sp + 4#16)))
    exec .rtt s = .next { t with
      ps := ps, regs := { t.regs with pc := s.word sp }, flow := { s.flow with prefetchFault := true } } ∧
    exec .rti s = .next { t with
      ps := ps, regs := { t.regs with pc := s.word sp },
      flow := { s.flow with prefetchFault := true, pendTrace := s.flow.pendTrace || w.getLsbD 4 } }

/-- CSM in supervisor or user mode with MMR3 bit 3 set, in plain memory: the argument is read, the supervisor SP takes the current
SP, the PS names supervisor mode with the old mode as previous and T clear, the old PS without its codes, the PC and the argument
are pushed, and the PC comes from supervisor instruction space `0o10`; the new PS keeps the codes, by R440 against a remark in
10_state R41, which is log entry 32, DEDUCED; each push is made in the mode that is current then, supervisor mode unless a push
before it stored into the PS, which is log entry 33, DESIGN CHOICE. In kernel mode, or with that bit clear, it is a reserved
instruction. When reading the argument, a push or the read of the new PC raises, that is taken at once (43 R440; 60 R600, R615;
20_memory R156). The spec's own decisions here (log entry 28): the argument is read before the switch and `0o10` is in supervisor
instruction space (D29); the pushes are recorded in MMR1 (D27) and not checked as kernel stack references (D23). -/
def Obligations.CallSupervisor : Prop :=
  ∀ (src : Operand) (s : State),
    (s.curMode = kernel ∨ s.mmu.mmr3.getLsbD 3 = false → exec (.csm src) s = .next (s.takeEvent .reservedInstruction)) ∧
    (s.curMode ≠ kernel → s.mmu.mmr3.getLsbD 3 = true → ∀ arg s1 sp, readOp .word src s = .ok arg s1 → sp = s1.reg .sp →
      s1.PlainAt (sp - 2#16) → s1.PlainAt (sp - 4#16) → s1.PlainAt (sp - 6#16) → s1.PlainAt 0o10#16 →
      let r3 (u : State) := recordMmr1 6#3 (-2#5) (recordMmr1 6#3 (-2#5) (recordMmr1 6#3 (-2#5) u))
      let t := r3 (((s1.putWord (sp - 2#16) (s1.ps &&& 0o177760#16)).putWord (sp - 4#16) s1.regs.pc).putWord (sp - 6#16) arg)
      exec (.csm src) s = .next { t with
        regs := { s1.regs with ssp := sp - 6#16, pc := t.word 0o10#16 }
        ps := 1#2 ++ s1.ps.extractLsb' 14 2 ++ s1.ps.extractLsb' 5 7 ++ 0#1 ++ s1.ps.extractLsb' 0 4
        flow := { s1.flow with prefetchFault := true } }) ∧
    (s.curMode ≠ kernel → s.mmu.mmr3.getLsbD 3 = true → ∀ e u,
      (readOp .word src s = .error e u → s.EndsEarly [.csm src] e u) ∧
      ∀ arg s1 t, readOp .word src s = .ok arg s1 → t = { s1 with
          regs := { s1.regs with ssp := s1.reg .sp }
          ps := 1#2 ++ s1.ps.extractLsb' 14 2 ++ s1.ps.extractLsb' 5 7 ++ 0#1 ++ s1.ps.extractLsb' 0 4
          flow := { s1.flow with prefetchFault := true } } →
        (push (s1.ps &&& 0o177760#16) t = .error e u → s.EndsEarly [.csm src] e u) ∧
        ∀ b1 t1, push (s1.ps &&& 0o177760#16) t = .ok b1 t1 →
          (push t1.regs.pc t1 = .error e u → s.EndsEarly [.csm src] e u) ∧
          ∀ b2 t2, push t1.regs.pc t1 = .ok b2 t2 →
            (push arg t2 = .error e u → s.EndsEarly [.csm src] e u) ∧
            ∀ b3 t3, push arg t2 = .ok b3 t3 → memRead .i supervisor .word 0o10#16 .read t3 = .error e u →
              s.EndsEarly [.csm src] e u)

/-! ## Miscellaneous instructions -/

/-- HALT in kernel mode with halt option 0 enters console ODT: it signals the entry, has the PC to print in octal, and changes no
register and no memory; otherwise it traps through `0o4` with CPUERR bit 7. In console ODT a step sends the next character to XBUF
when the transmitter is ready, which clears its Done, and waits otherwise; when the PC is printed the character in RBUF is dropped
and the prompt is printed. In kernel mode WAIT starts waiting; RESET makes the bus reset cycles, clears PIRQ, MMR0 bits 15:13 and 0,
and MMR3; SPL loads `PS[7:5]`; outside it they do nothing (44 R460, R462, R464, R468; 60 R616; 61 R683, R685, R690; 10_state R93).
That each character is a step is log entry 23, DESIGN CHOICE; what SPL does is log entry 19, PRESUMED; that RESET clears MMR3 is the
spec's own decision D12, and how console ODT is entered D47 (log entry 28). -/
def Obligations.HaltWaitResetSpl : Prop :=
  ∀ (s : State) (n : BitVec 3),
    (s.curMode = kernel → s.plat.cfg.haltOption = false → ∃ digits : List Byte,
      exec .halt s = .next { s with
        phase := .console .entering
        io := { s.io with
          out := s.io.out ++ [0o15#8, 0o12#8] ++ digits
          gp := s.io.gp ++ [.write 0o234#8] } } ∧
      digits.length = 6 ∧ (∀ d ∈ digits, 0o60 ≤ d.toNat ∧ d.toNat ≤ 0o67) ∧
      digits.foldl (fun n d => n * 8 + (d.toNat - 0o60)) 0 = s.regs.pc.toNat) ∧
    (s.curMode ≠ kernel ∨ s.plat.cfg.haltOption = true → s.TrapReady 0o4#16 →
      exec .halt s = .next ((s.raised 0o200#16).afterTrap 0o4#16)) ∧
    (∀ u c, u = s.sampleInputs → u.lines.init = false → u.plat.serialLine = true → u.phase = .console c →
      (∀ ch rest, u.io.out = ch :: rest → u.io.txReady = true →
        step s = .next { u with io := { u.io with out := rest, tx := u.io.tx ++ [ch], txReady := false } }) ∧
      (u.io.out ≠ [] → u.io.txReady = false → step s = .next u) ∧
      (u.io.out = [] → c = .entering → step s = .next { u with
        phase := .console (.read .prompt)
        io := { u.io with rx := none, out := [0o15#8, 0o12#8, 0o100#8] } })) ∧
    (s.curMode ≠ kernel → exec .wait s = .next s ∧ exec .reset s = .next s ∧ exec (.spl n) s = .next s) ∧
    (s.curMode = kernel →
      exec .wait s = .next { s with phase := .waiting } ∧
      exec .reset s = .next { s with
        io := { s.io with gp := s.io.gp ++ [.write 0o014#8, .write 0o214#8] }
        sys := { s.sys with pirq := 0#7 }
        mmu := { s.mmu with mmr0 := s.mmu.mmr0 &&& 0o017776#16, mmr3 := 0#16 }
        flow := { s.flow with prefetchFault := true } } ∧
      exec (.spl n) s = .next { s with
        ps := s.ps.extractLsb' 8 8 ++ n ++ s.ps.extractLsb' 0 5, flow := { s.flow with prefetchFault := true } })

/-- Every condition-code operator, `0o000240` to `0o000277`, sets (bit 4 of its word) or clears the codes that bits 3:0 of its
word name and changes nothing else, in every mode, and so do those with a name. NOP, and outside kernel mode WAIT, RESET and SPL,
change nothing. MFPT loads R0 with 5 and changes nothing else, in every mode (44 R478, R480, R481). -/
def Obligations.CodeOperatorsAndNoOperations : Prop :=
  ∀ (s : State) (fd fl on : Bool) (mask : BitVec 4) (n : BitVec 3),
    (∀ i, i = decode fd fl (5#11 ++ BitVec.ofBool on ++ mask) ∨ (i, on, mask) ∈ ccTable →
      exec i s = .next { s with ps := s.ps.extractLsb' 4 12 ++
        (if on then s.ps.extractLsb' 0 4 ||| mask else s.ps.extractLsb' 0 4 &&& ~~~mask) }) ∧
    exec (.ccop on mask) s = .next { s with ps := s.ps.extractLsb' 4 12 ++
      (if on then s.ps.extractLsb' 0 4 ||| mask else s.ps.extractLsb' 0 4 &&& ~~~mask) } ∧
    exec .nop s = .next s ∧
    (s.curMode ≠ kernel → exec .wait s = .next s ∧ exec .reset s = .next s ∧ exec (.spl n) s = .next s) ∧
    decode fd fl 7#16 = .mfpt ∧ exec .mfpt s = .next (s.setReg .r0 5#16)

/-- MFPI and MFPD push a word of the previous mode's instruction or data space on the current stack, MTPI and MTPD pop one and store
it there; R6 is the previous mode's SP; from user to user MFPI reads data space; N and Z are the word's, V is clear. When
evaluating, reading or writing the operand, the push or the pop raises, that is taken at once (44 R470 to R473; 40 R268; 20_memory
R156; 60 R600). That the codes are set last, so that an instruction that ends early leaves them, is the spec's own decision D21, and
that a write of the PS's own codes stands D6 (log entry 28). -/
def Obligations.PreviousSpaceMoves : Prop :=
  ∀ (s : State) (f : Operand) (sp : Space) (get put : Operand → Instr),
    (sp = .i ∧ get = .mfpi ∧ put = .mtpi ∨ sp = .d ∧ get = .mfpd ∧ put = .mtpd) →
    (f.mode = .register → ∀ b t, push (if f.reg = .sp then s.stackPtr s.prevMode else s.reg f.reg) s = .ok b t →
      exec (get f) s = .next (t.finish b
        (codes (if f.reg = .sp then s.stackPtr s.prevMode else s.reg f.reg) false (s.ps.getLsbD 0)))) ∧
    (f.mode ≠ .register → ∀ sp' a s1 v s2 b t, effectiveAddress f 2 s = .ok (sp', a) s1 →
      memRead (if s.curMode = user ∧ s.prevMode = user then .d else sp) s.prevMode .word a .read s1 = .ok v s2 →
      push v s2 = .ok b t → exec (get f) s = .next (t.finish b (codes v false (s.ps.getLsbD 0)))) ∧
    (f.mode = .register → ∀ v t, pop s = .ok v t →
      exec (put f) s = .next ((if f.reg = .sp then t.setStackPtr s.prevMode v else t.setReg f.reg v).withCc
        (codes v false (s.ps.getLsbD 0)))) ∧
    (f.mode ≠ .register → ∀ v s1 sp' a s2 b t, pop s = .ok v s1 → effectiveAddress f 2 s1 = .ok (sp', a) s2 →
      memWrite sp s.prevMode .word a v s2 = .ok b t → exec (put f) s = .next (t.finish b (codes v false (s.ps.getLsbD 0)))) ∧
    (∀ e u,
      (f.mode = .register → push (if f.reg = .sp then s.stackPtr s.prevMode else s.reg f.reg) s = .error e u →
        s.EndsEarly [get f] e u) ∧
      (f.mode ≠ .register → effectiveAddress f 2 s = .error e u → s.EndsEarly [get f] e u) ∧
      (f.mode ≠ .register → ∀ sp' a s1 read, effectiveAddress f 2 s = .ok (sp', a) s1 →
        read = memRead (if s.curMode = user ∧ s.prevMode = user then .d else sp) s.prevMode .word a .read s1 →
        (read = .error e u → s.EndsEarly [get f] e u) ∧
        (∀ v s2, read = .ok v s2 → push v s2 = .error e u → s.EndsEarly [get f] e u)) ∧
      (pop s = .error e u → s.EndsEarly [put f] e u) ∧
      (f.mode ≠ .register → ∀ v s1, pop s = .ok v s1 →
        (effectiveAddress f 2 s1 = .error e u → s.EndsEarly [put f] e u) ∧
        (∀ sp' a s2, effectiveAddress f 2 s1 = .ok (sp', a) s2 → memWrite sp s.prevMode .word a v s2 = .error e u →
          s.EndsEarly [put f] e u)))

/-! ## Interrupts and console -/

/-- What the service state takes. A pending parity, trace, yellow stack, power-fail or floating trap, in that order, whatever the
priority; otherwise the first of the twelve maskable requests, from program interrupt 7 and interrupt line 7 down to program
interrupt 1, whose level is above the priority in the PS. An interrupt line whose acknowledge cycle is aborted is ignored and the
next instruction runs; with nothing to take, HALT enters console ODT. A wait ends for the same events, but not for a trace request
alone nor for a line whose acknowledge is aborted; a pending trace trap then comes first, after parity only. That it comes before
HALT, and that the other lines and HALT are still looked at beside an aborted one, is log entry 7, DEDUCED (60 R602, R610, R630 to
R636, R651, R673; 44 R462; D33). That the service state is examined again after each sequence, before the handler's first
instruction, is the spec's own decision D41 (log entry 28). -/
def Obligations.ServicePriority : Prop :=
  ∀ (s : State),
    (s.flow.pendParity = true → s.highestRequest = some .parity) ∧
    (s.flow.pendParity = false → s.flow.pendTrace = true → s.highestRequest = some .trace) ∧
    (s.flow.pendParity = false → s.flow.pendTrace = false → s.flow.pendYellow = true → s.highestRequest = some .yellow) ∧
    (s.flow.pendParity = false → s.flow.pendTrace = false → s.flow.pendYellow = false → s.lines.pwrf = true →
      s.flow.pwrfAcked = false → s.highestRequest = some .powerFail) ∧
    (s.flow.pendParity = false → s.flow.pendTrace = false → s.flow.pendYellow = false →
      (s.lines.pwrf = false ∨ s.flow.pwrfAcked = true) → s.flow.pendFp = true → s.highestRequest = some .floating) ∧
    (s.flow.pendParity = false → s.flow.pendTrace = false → s.flow.pendYellow = false →
      (s.lines.pwrf = false ∨ s.flow.pwrfAcked = true) → s.flow.pendFp = false →
      (∀ r, s.highestRequest = some r ↔ ∃ (k : Nat) (level : BitVec 3), s.maskableTable[k]? = some (level, some r) ∧ s.priority < level ∧
        ∀ j < k, ∀ level' r', s.maskableTable[j]? = some (level', some r') → level' ≤ s.priority)) ∧
    (∀ r, s.highestRequest = some r → r ≠ .irq none → s.service = some (s.takeRequest r)) ∧
    (s.highestRequest = some (.irq none) → s.service = none) ∧
    (s.highestRequest = none → s.service = if s.lines.halt then some s.enterConsole else none) ∧
    (∀ (heard : Irq → Irq) (w : State), (∀ l, heard l = if l = .asserted none then .negated else l) →
      w = { s with
        lines := { s.lines with
          irq7 := heard s.lines.irq7, irq6 := heard s.lines.irq6, irq5 := heard s.lines.irq5, irq4 := heard s.lines.irq4 }
        flow := { s.flow with pendTrace := false } } →
      (w.highestRequest = none → s.lines.halt = false → s.waitStep = s) ∧
      (w.highestRequest = none → s.lines.halt = true → s.flow.pendTrace = false → s.waitStep = s.enterConsole) ∧
      (∀ r, w.highestRequest = some r → r = .parity ∨ s.flow.pendTrace = false → s.waitStep = s.takeRequest r) ∧
      (s.flow.pendTrace = true → w.highestRequest ≠ some .parity → w.highestRequest ≠ none ∨ s.lines.halt = true →
        s.waitStep = s.takeRequest .trace)) ∧
    (∀ u t, u = s.sampleInputs → u.lines.init = false → u.phase = .service → u.service = some t → step s = .next t) ∧
    (∀ u, u = s.sampleInputs → u.lines.init = false → u.phase = .waiting → step s = .next u.waitStep)

/-- Console ODT reading a character, and its command G. With nothing left to print a step takes the character in RBUF and echoes it,
unless its code is below `0o20` or it is a byte of a dump address, and does nothing while there is none. G, in either case, after a
typed number, or at the prompt with no number, which stands for 0, has two nulls printed, and then starts: the PC is the number, the
PS, PIRQ, MMR0 bits 15:13 and 0, MMR3, CPUERR, CCR and FPS are clear, the bus is initialised, every other register and all of
storage stay, but for what other bus masters store before its one memory cycle, the prefetch pipeline is empty, and the machine runs
on. The memory system error register is taken not to be storage (61 R685, R694, R702; 10_state R92). That a step of console ODT does
one thing is log entry 23, DESIGN CHOICE; the order of the cycles of G and the flags it clears are the spec's own decision D48, and
that the number is cut to 16 bits D47 (log entry 28). -/
def Obligations.ConsoleStart : Prop :=
  ∀ (s u : State), u = s.sampleInputs → u.lines.init = false → u.plat.serialLine = true → u.io.out = [] →
    (∀ e, u.phase = .console (.read e) →
      (u.io.rx = none → step s = .next u) ∧
      (∀ ch, u.io.rx = some ch → step s = .next { u with
        phase := .console (.typed e ch)
        io := { u.io with rx := none, out := if (match e with
          | .dumpHigh => true
          | .dumpLow _ => true
          | _ => decide (ch.toNat % 128 < 0o20)) then [] else [ch] } })) ∧
    (∀ n ch, u.phase = .console (.typed (.number n) ch) → ch.toNat % 128 = 0o107 ∨ ch.toNat % 128 = 0o147 →
      step s = .next { u with phase := .console (.go (n.extractLsb' 0 16)), io := { u.io with out := [0#8, 0#8] } }) ∧
    (∀ ch, u.phase = .console (.typed .prompt ch) → ch.toNat % 128 = 0o107 ∨ ch.toNat % 128 = 0o147 →
      step s = .next { u with phase := .console (.go 0#16), io := { u.io with out := [0#8, 0#8] } }) ∧
    (∀ a, u.phase = .console (.go a) → u.deviceAt 0o17777744#22 ≠ .storage →
      ∃ t, step s = .next t ∧ t.phase = .service ∧ t.regs = { u.regs with pc := a } ∧ t.ps = 0#16 ∧
        pirqWord t.sys.pirq = 0#16 ∧ t.sys.cpuerr = 0#16 ∧ t.sys.ccr = 0#16 ∧
        t.mmu = { u.mmu with mmr0 := u.mmu.mmr0 &&& 0o017776#16, mmr3 := 0#16 } ∧
        t.fpu = { u.fpu with fps := 0#16 } ∧ t.mem = u.memAfter 1 ∧ (u.Undisturbed → t.mem = u.mem) ∧
        t.flow = { u.flow with pendTrace := false, pendYellow := false, pendFp := false, traceFlag := false,
                               prefetchFault := true, stale := none } ∧
        t.io = { u.io with gp := u.io.gp ++ [.read 0o000#8, .write 0o014#8, .write 0o214#8, .write 0o034#8] })

/-! ## Floating point -/

/-- CFCC copies the four floating codes to the PS; SETF, SETD, SETI and SETL clear or set one FPS bit; LDFPS loads the FPS but bits
13, 12 and 4, STFPS stores it; STST stores FEC and, where there is a second word, FEA; a floating code that is no instruction raises
floating exception 2, which records FER, FEC and the instruction's address and, unless FID is set, requests the floating trap. When
evaluating, reading or writing the operand raises, that is taken at once (45 R511, R523, R530; 46 R541 to R547, R571; 20_memory
R156; 60 R600). That STST's modes step by 4 is log entry 20, PRESUMED. Each word is stored in the mode that is current then
(20_memory R143). That LDFPS ignores bits 13, 12 and 4 is the spec's own decision D31, and that FID suppresses the trap request
alone D39 (log entry 28). -/
def Obligations.FloatControl : Prop :=
  ∀ (s : State) (f : Operand) (w : Word),
    exec .cfcc s = .next (s.withCc
      ⟨s.fpu.fps.getLsbD 3, s.fpu.fps.getLsbD 2, s.fpu.fps.getLsbD 1, s.fpu.fps.getLsbD 0⟩) ∧
    (∀ row ∈ [(Instr.setf, s.fpu.fps &&& 0o177577#16), (.setd, s.fpu.fps ||| 0o200#16), (.seti, s.fpu.fps &&& 0o177677#16),
        (.setl, s.fpu.fps ||| 0o100#16)], exec row.1 s = .next { s with fpu := { s.fpu with fps := row.2 } }) ∧
    (∀ v s1, readOp .word f s = .ok v s1 →
      exec (.ldfps f) s = .next { s1 with fpu := { s1.fpu with fps := v &&& 0o147757#16 } }) ∧
    (∀ p s1 b t, place .word f s = .ok p s1 → writePlace .word p (s.fpu.fps &&& 0o147757#16) s1 = .ok b t →
      exec (.stfps f) s = .next t) ∧
    (f.mode = .register → exec (.stst f) s = .next (s.setReg f.reg (s.fpu.fec.setWidth 16))) ∧
    (f.mode ≠ .register → ∀ sp a s1 b t, effectiveAddress f 4 s = .ok (sp, a) s1 →
      memWrite sp s1.curMode .word a (s.fpu.fec.setWidth 16) s1 = .ok b t →
      (f.reg = .pc ∧ (f.mode = .autoInc ∨ f.mode = .autoDec) → exec (.stst f) s = .next t) ∧
      (¬(f.reg = .pc ∧ (f.mode = .autoInc ∨ f.mode = .autoDec)) → ∀ b' u,
        memWrite sp t.curMode .word (a + 2#16) s.fpu.fea t = .ok b' u → exec (.stst f) s = .next u)) ∧
    (∀ e u,
      (readOp .word f s = .error e u → s.EndsEarly [.ldfps f] e u) ∧
      (place .word f s = .error e u → s.EndsEarly [.stfps f] e u) ∧
      (∀ p s1, place .word f s = .ok p s1 → writePlace .word p (s.fpu.fps &&& 0o147757#16) s1 = .error e u →
        s.EndsEarly [.stfps f] e u) ∧
      (f.mode ≠ .register → effectiveAddress f 4 s = .error e u → s.EndsEarly [.stst f] e u) ∧
      (f.mode ≠ .register → ∀ sp a s1, effectiveAddress f 4 s = .ok (sp, a) s1 →
        (memWrite sp s1.curMode .word a (s.fpu.fec.setWidth 16) s1 = .error e u → s.EndsEarly [.stst f] e u) ∧
        (¬(f.reg = .pc ∧ (f.mode = .autoInc ∨ f.mode = .autoDec)) → ∀ b t,
          memWrite sp s1.curMode .word a (s.fpu.fec.setWidth 16) s1 = .ok b t →
          memWrite sp t.curMode .word (a + 2#16) s.fpu.fea t = .error e u → s.EndsEarly [.stst f] e u))) ∧
    exec (.illegalFloat w) s = .next { s with
      fpu := { s.fpu with fps := s.fpu.fps ||| 0o100000#16, fec := 2#4, fea := s.flow.instrAddr }
      flow := { s.flow with pendFp := s.flow.pendFp || !s.fpu.fps.getLsbD 14 } }

/-- A floating source: accumulators 0 to 5 by register number, and 6 or 7 raise exception 2 and end the instruction; otherwise it is
where the mode leads for an operand of 4 bytes, or 8 in double precision, and from plain memory it is the two or four consecutive
words there, most significant first; one word for an immediate and in mode 4 with the PC, the rest zero. A minus zero from memory
with FIUV set raises exception 12 and ends the instruction. A reference that aborts ends the read (45 R520 to R524, R531; 20_memory
R156). The spec's own here (log entry 28): the words lie at rising addresses, most significant first (D38); exceptions 2 and 12 end
the instruction with nothing more changed (D40); that the rest of a one-word operand is zero is what R521 derives. A floating
exception sets FER, FEC and FEA, requests the floating trap unless FID is set, and changes nothing else (45 R530; that FID holds
back the trap request alone is the spec's own decision D39). The bit positions of sign and exponent field in a pattern are log
entry 20, PRESUMED (K12). -/
def Obligations.FloatSources : Prop :=
  ∀ (s : State) (f : Operand) (fmt : FFormat),
    (∀ code : BitVec 4, s.floatException code = { s with
      fpu := { s.fpu with fps := s.fpu.fps ||| 0o100000#16, fec := code, fea := s.flow.instrAddr }
      flow := { s.flow with pendFp := s.flow.pendFp || !s.fpu.fps.getLsbD 14 } }) ∧
    (f.mode = .register → ∀ n : Fin 6, f.reg.bits.toNat = n.val → readFloatSource f fmt s = .ok (s.acc n fmt) s) ∧
    (f.mode = .register → f.reg = .sp ∨ f.reg = .pc → readFloatSource f fmt s = .error .ended (s.floatException 2#4)) ∧
    (f.mode = .deferred → f.reg ≠ .pc → (∀ k, k < fmt.words → s.PlainAt (s.reg f.reg + BitVec.ofNat 16 (2 * k))) →
      ∀ v : BitVec 64, v = (match fmt with
        | .f => s.word (s.reg f.reg) ++ s.word (s.reg f.reg + 2#16) ++ 0#32
        | .d => s.word (s.reg f.reg) ++ s.word (s.reg f.reg + 2#16) ++ s.word (s.reg f.reg + 4#16) ++
            s.word (s.reg f.reg + 6#16)) →
      readFloatSource f fmt s = if s.fpu.fps.getLsbD 11 = true ∧ v.msb = true ∧ v.extractLsb' 55 8 = 0#8
        then .error .ended (s.floatException 12#4) else .ok v s) ∧
    (f = ⟨.autoInc, .pc⟩ → s.PlainAt s.regs.pc →
      readFloatSource f fmt s =
        let t := recordMmr1 7#3 2#5 (s.setPc (s.regs.pc + 2#16))
        if s.fpu.fps.getLsbD 11 = true ∧ (s.word s.regs.pc).msb = true ∧ (s.word s.regs.pc).extractLsb' 7 8 = 0#8
        then .error .ended (t.floatException 12#4) else .ok (s.word s.regs.pc ++ 0#48) t) ∧
    (f.mode ≠ .register → ∀ n : Nat, (n = match fmt with | .f => 4 | .d => 8) →
      (∀ e t, effectiveAddress f n s = .error e t → floatPlace f fmt s = .error e t ∧ readFloatSource f fmt s = .error e t) ∧
      (∀ sp a t, effectiveAddress f n s = .ok (sp, a) t → floatPlace f fmt s = .ok (.mem sp a) t ∧
        (∀ e u, readFloatPlace f fmt (.mem sp a) t = .error e u → readFloatSource f fmt s = .error e u) ∧
        (∀ (one : Bool) (v : BitVec 64), one = decide (f.reg = .pc ∧ (f.mode = .autoInc ∨ f.mode = .autoDec)) →
          (∀ k, k < (if one then 1 else fmt.words) → t.PlainAt (a + BitVec.ofNat 16 (2 * k))) →
          v = (if one then t.word a ++ 0#48 else match fmt with
            | .f => t.word a ++ t.word (a + 2#16) ++ 0#32
            | .d => t.word a ++ t.word (a + 2#16) ++ t.word (a + 4#16) ++ t.word (a + 6#16)) →
          readFloatPlace f fmt (.mem sp a) t = .ok v t ∧
          readFloatSource f fmt s = if s.fpu.fps.getLsbD 11 = true ∧ v.msb = true ∧ v.extractLsb' 55 8 = 0#8
            then .error .ended (t.floatException 12#4) else .ok v t)))

/-- Writing an accumulator in double precision writes its 64 bits, in single precision the high 32, after which the low 32 are free;
no other accumulator and nothing else of the machine changes but the draw counter. Writing an operand in plain memory stores its two
or four words, or the first word alone for an immediate and in mode 4 with the PC, most significant first (the spec's own decision
D38, log entry 28), and changes no other byte and nothing else; through any mapping, each of the two words of a single-precision
operand is written in the mode that is current then, which the first of them may have loaded (10_state R70; 20_memory R143; 45 R521,
R523, R524; log entry 5; that the low 32 bits are free is the spec's own decision D30, log entry 28). -/
def Obligations.FloatDestinations : Prop :=
  ∀ (s : State) (n : Fin 6) (fmt : FFormat) (v : BitVec 64),
    (fmt = .d → (s.setAcc n fmt v).acc n .d = v ∧ (s.setAcc n fmt v).draws = s.draws) ∧
    (fmt = .f → (s.setAcc n fmt v).acc n .f = v.extractLsb' 32 32 ++ 0#32 ∧ (s.setAcc n fmt v).draws = s.draws + 1) ∧
    (∀ m fmt', m ≠ n → (s.setAcc n fmt v).acc m fmt' = s.acc m fmt') ∧
    s.setAcc n fmt v =
      { s with fpu := { s.fpu with ac := (s.setAcc n fmt v).fpu.ac }, draws := (s.setAcc n fmt v).draws } ∧
    (∀ (f : Operand) (sp : Space) (a : Word) (words : Nat),
      (words = if f.reg = .pc ∧ (f.mode = .autoInc ∨ f.mode = .autoDec) then 1 else fmt.words) → s.mem.wf = true →
      (∀ k, k < words → s.PlainAt (a + BitVec.ofNat 16 (2 * k))) →
      ∃ t, writeFloatPlace f fmt (.mem sp a) v s = .ok () t ∧ t = { s with mem := t.mem } ∧
        (∀ k, k < words → t.word (a + BitVec.ofNat 16 (2 * k)) = v.extractLsb' (48 - 16 * k) 16) ∧
        ∀ b, (∀ k, k < words → b ≠ (a + BitVec.ofNat 16 (2 * k)).toNat ∧ b ≠ (a + BitVec.ofNat 16 (2 * k)).toNat + 1) →
          t.mem.read b = s.mem.read b) ∧
    (∀ (f : Operand) (sp : Space) (a : Word) (b b' : Bool) (t u : State),
      ¬(f.reg = .pc ∧ (f.mode = .autoInc ∨ f.mode = .autoDec)) →
      memWrite sp s.curMode .word a (v.extractLsb' 48 16) s = .ok b t →
      memWrite sp t.curMode .word (a + 2#16) (v.extractLsb' 32 16) t = .ok b' u →
      writeFloatPlace f .f (.mem sp a) v s = .ok () u)

/-- CLR, TST, ABS, NEG, LD and ST in either precision: CLR writes zero and sets FZ alone; TST sets FN from the sign and FZ from a
zero exponent; ABS clears and NEG inverts the sign, and both turn a zero of any kind into the clean zero; LD copies a pattern to the
accumulator and sets the codes; ST copies the accumulator and sets none. When evaluating, reading or writing the operand raises,
that is taken at once; when it raises a floating exception that ends the instruction, nothing more changes. Setting the floating
codes writes FPS bits 3:0 and nothing else (46 R548 to R553; 45 R504, R509, R523, R524, R531; 20_memory R156; 60 R600). That FZ is
set by the exponent field and FN by the sign bit of the pattern is the spec's own decision D34 (log entry 28); the bit positions of
sign and exponent field in a pattern are log entry 20, PRESUMED (K12). -/
def Obligations.FloatMoves : Prop :=
  ∀ (s : State) (f : Operand) (ac : AcField) (fmt : FFormat), fmt = s.precision →
    (∀ n z v c : Bool, s.withFcc ⟨n, z, v, c⟩ = { s with fpu := { s.fpu with
      fps := s.fpu.fps.extractLsb' 4 12 ++ BitVec.ofBool n ++ BitVec.ofBool z ++ BitVec.ofBool v ++ BitVec.ofBool c } }) ∧
    (∀ p s1 t, floatPlace f fmt s = .ok p s1 → writeFloatPlace f fmt p 0#64 s1 = .ok () t →
      ∀ i ∈ [Instr.clrf f, .clrd f], exec i s = .next (t.withFcc ⟨false, true, false, false⟩)) ∧
    (∀ v s1, readFloatSource f fmt s = .ok v s1 → ∀ i ∈ [Instr.tstf f, .tstd f],
      exec i s = .next (s1.withFcc ⟨v.msb, decide (v.extractLsb' 55 8 = 0#8), false, false⟩)) ∧
    (∀ p s1 v s2 t, floatPlace f fmt s = .ok p s1 → readFloatPlace f fmt p s1 = .ok v s2 →
      checkUndefined p v s2 = .ok () s2 →
      (∀ r, (r = if v.extractLsb' 55 8 = 0#8 then 0#64 else 0#1 ++ v.extractLsb' 0 63) →
        writeFloatPlace f fmt p r s2 = .ok () t → ∀ i ∈ [Instr.absf f, .absd f],
        exec i s = .next (t.withFcc ⟨false, decide (v.extractLsb' 55 8 = 0#8), false, false⟩)) ∧
      (∀ r, (r = if v.extractLsb' 55 8 = 0#8 then 0#64 else ~~~(v.extractLsb' 63 1) ++ v.extractLsb' 0 63) →
        writeFloatPlace f fmt p r s2 = .ok () t → ∀ i ∈ [Instr.negf f, .negd f],
        exec i s = .next (t.withFcc ⟨r.msb, decide (v.extractLsb' 55 8 = 0#8), false, false⟩))) ∧
    (∀ v s1, readFloatSource f fmt s = .ok v s1 → ∀ i ∈ [Instr.ldf ac f, .ldd ac f],
      exec i s = .next ((s1.setAcc (acNumber ac) fmt v).withFcc ⟨v.msb, decide (v.extractLsb' 55 8 = 0#8), false, false⟩)) ∧
    (∀ p s1 t, floatPlace f fmt s = .ok p s1 → writeFloatPlace f fmt p (s.acc (acNumber ac) fmt) s1 = .ok () t →
      ∀ i ∈ [Instr.stf ac f, .std ac f], exec i s = .next t) ∧
    (∀ e u,
      (floatPlace f fmt s = .error e u →
        s.EndsEarly [.clrf f, .clrd f, .absf f, .absd f, .negf f, .negd f, .stf ac f, .std ac f] e u) ∧
      (readFloatSource f fmt s = .error e u → s.EndsEarly [.tstf f, .tstd f, .ldf ac f, .ldd ac f] e u) ∧
      ∀ p s1, floatPlace f fmt s = .ok p s1 →
        (writeFloatPlace f fmt p 0#64 s1 = .error e u → s.EndsEarly [.clrf f, .clrd f] e u) ∧
        (writeFloatPlace f fmt p (s.acc (acNumber ac) fmt) s1 = .error e u → s.EndsEarly [.stf ac f, .std ac f] e u) ∧
        (readFloatPlace f fmt p s1 = .error e u → s.EndsEarly [.absf f, .absd f, .negf f, .negd f] e u) ∧
        ∀ v s2, readFloatPlace f fmt p s1 = .ok v s2 →
          (checkUndefined p v s2 = .error e u → s.EndsEarly [.absf f, .absd f, .negf f, .negd f] e u) ∧
          (checkUndefined p v s2 = .ok () s2 → ∀ r,
            ((r = if v.extractLsb' 55 8 = 0#8 then 0#64 else 0#1 ++ v.extractLsb' 0 63) →
              writeFloatPlace f fmt p r s2 = .error e u → s.EndsEarly [.absf f, .absd f] e u) ∧
            ((r = if v.extractLsb' 55 8 = 0#8 then 0#64 else ~~~(v.extractLsb' 63 1) ++ v.extractLsb' 0 63) →
              writeFloatPlace f fmt p r s2 = .error e u → s.EndsEarly [.negf f, .negd f] e u)))

/-- ADD, SUB, MUL and DIV compute the exact sum, difference, product or quotient of accumulator and source and store it rounded; a
zero divisor raises exception 4 and changes nothing more; CMP sets FN and FZ from source minus accumulator and leaves the clean zero
where both are zero. When reading the source raises, or ends the instruction, that is the end of it (46 R554 to R558; 45 R503, R507,
R508, R524; 20_memory R156; 60 R600). The spec's own decisions here (log entry 28): the stored result is the rounding of the exact
result (D35); exception 4 changes nothing more (D40); FZ and FN are those of the stored pattern (D34). What storing a result leaves
in the machine is `ArithmeticLimits`. The bit positions of a pattern are log entry 20, PRESUMED (K12). -/
def Obligations.FloatArithmetic : Prop :=
  ∀ (s s1 : State) (f : Operand) (ac : AcField) (fmt : FFormat), fmt = s.precision →
    (∀ e, readFloatSource f fmt s = .error e s1 → s.EndsEarly [.addf ac f, .addd ac f, .subf ac f, .subd ac f, .mulf ac f,
      .muld ac f, .divf ac f, .divd ac f, .cmpf ac f, .cmpd ac f] e s1) ∧
    ∀ v a : BitVec 64, readFloatSource f fmt s = .ok v s1 → a = s.acc (acNumber ac) fmt →
    (∀ row ∈ [(Instr.addf ac f, floatValue a + floatValue v), (.addd ac f, floatValue a + floatValue v),
        (.subf ac f, floatValue a - floatValue v), (.subd ac f, floatValue a - floatValue v),
        (.mulf ac f, floatValue a * floatValue v), (.muld ac f, floatValue a * floatValue v)],
      ∃ x : Exact, x.value = row.2 ∧ x.den ≠ 0 ∧ exec row.1 s =
        .next (s1.storeResult (acNumber ac) fmt (arithResult x fmt s.chop s.fiv s.fiu))) ∧
    (∀ i ∈ [Instr.divf ac f, .divd ac f],
      (v.extractLsb' 55 8 ≠ 0#8 → ∃ x : Exact, x.value = floatValue a / floatValue v ∧ x.den ≠ 0 ∧ exec i s =
        .next (s1.storeResult (acNumber ac) fmt (arithResult x fmt s.chop s.fiv s.fiu))) ∧
      (v.extractLsb' 55 8 = 0#8 → exec i s = .next (s1.floatException 4#4))) ∧
    (∀ i ∈ [Instr.cmpf ac f, .cmpd ac f],
      (v.extractLsb' 55 8 = 0#8 ∧ a.extractLsb' 55 8 = 0#8 →
        exec i s = .next ((s1.withFcc ⟨false, true, false, false⟩).setAcc (acNumber ac) fmt 0#64)) ∧
      (¬(v.extractLsb' 55 8 = 0#8 ∧ a.extractLsb' 55 8 = 0#8) →
        exec i s = .next (s1.withFcc ⟨decide (floatValue v - floatValue a < 0), decide (floatValue v - floatValue a = 0),
          false, false⟩)))

/-- Rounding to L bits: with K the exponent of the number, `2 ^ (K - 1) ≤ |x| < 2 ^ K`, the fraction kept is the integer part of
`|x| * 2 ^ (L - K)`, or of that plus one half, and a fraction that becomes `2 ^ L` is `2 ^ (L - 1)` with the exponent one more;
the pattern it is packed into has that value when the biased exponent is in 1 to 255 (45 R503, R507, R508). The format of the
pattern is log entry 20, PRESUMED (K12). -/
def Obligations.RoundingRule : Prop :=
  ∀ (x : Exact) (chop : Bool), x.num ≠ 0 → x.den ≠ 0 → ∀ L ∈ [24, 56],
    let K := x.trueExponent
    let r := roundTo x L chop
    (2 : ℚ) ^ (K - 1) ≤ |x.value| ∧ |x.value| < (2 : ℚ) ^ K ∧
    ((x.fractionBits L chop : ℕ) : ℤ) = ⌊|x.value| * (2 : ℚ) ^ ((L : ℤ) - K) + (if chop then 0 else 1 / 2)⌋ ∧
    2 ^ (L - 1) ≤ r.fraction ∧ r.fraction < 2 ^ L ∧ r.neg = x.neg ∧
    (r.fraction : ℚ) * (2 : ℚ) ^ (r.biased - 128) = (x.fractionBits L chop : ℚ) * (2 : ℚ) ^ K ∧
    (1 ≤ r.biased → r.biased ≤ 255 →
      floatValue (r.pack L) = (if x.neg then -1 else 1) * r.fraction * (2 : ℚ) ^ (r.biased - 128 - L))

/-- Storing an arithmetic result: an exact zero is the clean zero; a biased exponent above 255 is an overflow: FV, and with FIV
exception 8 and the exponent's low eight bits, otherwise zero; one below 1 is an underflow: with FIU exception 10 and the
exponent's low eight bits, otherwise zero; anything between is stored as it is. And what storing a result leaves in the machine: the
accumulator holds the pattern, its high 32 bits in single precision, after which its low 32 are free; no other accumulator changes;
FN is the pattern's sign, FZ says that its exponent field is zero, FV is as given, FC is clear; with an exception FER, FEC and FEA
are recorded and, unless FID is set, the floating trap is requested; nothing else changes but the draw counter (45 R506, R508, R509,
R530; 10_state R70). The spec's own decisions here (log entry 28): FN and FZ are those of the stored pattern (D34), the low 32 bits
are free (D30), FID holds back the trap request alone (D39). The bit positions of sign, exponent field and fraction in a pattern are
log entry 20, PRESUMED (K12). -/
def Obligations.ArithmeticLimits : Prop :=
  (∀ (s t : State) (n : Fin 6) (fmt : FFormat) (result : FResult), t = s.storeResult n fmt result →
    (fmt = .d → t.acc n .d = result.value ∧ t.draws = s.draws) ∧
    (fmt = .f → t.acc n .f = result.value.extractLsb' 32 32 ++ 0#32 ∧ t.draws = s.draws + 1) ∧
    (∀ m, m ≠ n → t.fpu.ac.get m = s.fpu.ac.get m) ∧
    ∀ codes : BitVec 4, codes = result.value.extractLsb' 63 1 ++ BitVec.ofBool (decide (result.value.extractLsb' 55 8 = 0#8)) ++
        BitVec.ofBool result.fv ++ 0#1 →
      (result.code = none → t = { s with
        fpu := { s.fpu with ac := t.fpu.ac, fps := s.fpu.fps.extractLsb' 4 12 ++ codes }, draws := t.draws }) ∧
      (∀ code, result.code = some code → t = { s with
        fpu := { ac := t.fpu.ac, fps := 1#1 ++ s.fpu.fps.extractLsb' 4 11 ++ codes, fec := code, fea := s.flow.instrAddr }
        flow := { s.flow with pendFp := s.flow.pendFp || !s.fpu.fps.getLsbD 14 }
        draws := t.draws })) ∧
  ∀ (x : Exact) (fmt : FFormat) (chop fiv fiu : Bool) (r : Rounded), r = roundTo x fmt.fraction chop →
    (x.num = 0 → arithResult x fmt chop fiv fiu = ⟨0#64, false, none⟩) ∧
    (x.num ≠ 0 → 255 < r.biased → arithResult x fmt chop fiv fiu =
      if fiv then ⟨r.pack fmt.fraction, true, some 8#4⟩ else ⟨0#64, true, none⟩) ∧
    (x.num ≠ 0 → r.biased < 1 → arithResult x fmt chop fiv fiu =
      if fiu then ⟨r.pack fmt.fraction, false, some 10#4⟩ else ⟨0#64, false, none⟩) ∧
    (x.num ≠ 0 → 1 ≤ r.biased → r.biased ≤ 255 → arithResult x fmt chop fiv fiu = ⟨r.pack fmt.fraction, false, none⟩) ∧
    ((r.pack fmt.fraction).extractLsb' 55 8 = BitVec.ofInt 8 r.biased) ∧ ((r.pack fmt.fraction).msb = r.neg)

/-- MODF and MODD: the product P is formed exactly; N, its integer part toward zero, goes to the accumulator with its low number bit
set, then g, the rest, to the accumulator. P zero: both zero. `2 ^ 127 ≤ |P|`, overflow: FV, and with FIV exception 8 and P chopped
with the exponent's low eight bits as N, otherwise N zero. From `2 ^ L`: P chopped, and zero. From 1: N exact, and g rounded, or
zero. From `2 ^ (-128)`: zero, and P rounded. Below, underflow: with FIU exception 10 and the rounded fraction with the exponent's
low eight bits, otherwise zero. In double precision the low `p - 2` bits of g are free, where `2 ^ p` is the largest power of two up
to `|N|`. When reading the source raises, or ends the instruction, that is the end of it (46 R559; log entry 5; 20_memory R156; 60
R600). That the parts are the exact ones rounded or chopped is the spec's own decision D35, FZ and FN of a stored pattern D34 (log
entry 28). What storing a result leaves in the machine is `ArithmeticLimits`. The format of a pattern is log entry 20, PRESUMED
(K12), and that the trapped underflow stores the exponent before rounding is log entry 20 too. -/
def Obligations.FloatModulus : Prop :=
  ∀ (s s1 : State) (f : Operand) (ac : AcField) (fmt : FFormat), fmt = s.precision →
    (∀ e, readFloatSource f fmt s = .error e s1 → s.EndsEarly [.modf ac f, .modd ac f] e s1) ∧
    ∀ (v a : BitVec 64) (P : ℚ) (L : Nat), L = fmt.fraction → readFloatSource f fmt s = .ok v s1 → a = s.acc (acNumber ac) fmt → P = floatValue a * floatValue v →
    ∀ i ∈ [Instr.modf ac f, .modd ac f],
    ∃ (x : Exact) (whole part free : BitVec 64) (openBits : Nat) (fv : Bool) (code : Option (BitVec 4)),
      x.value = P ∧ x.den = 1 ∧
      exec i s = .next ((State.setAcc { s1 with draws := s1.draws + 1 } (oddAc ac) fmt whole).storeResult (acNumber ac) fmt
        ⟨freeLowBits openBits part free, fv, code⟩) ∧
      (P = 0 → whole = 0#64 ∧ part = 0#64 ∧ openBits = 0 ∧ fv = false ∧ code = none) ∧
      ((2 : ℚ) ^ 127 ≤ |P| → part = 0#64 ∧ openBits = 0 ∧ fv = true ∧
        (s.fpu.fps.getLsbD 9 = true → whole = (roundTo x L true).pack L ∧ code = some 8#4) ∧
        (s.fpu.fps.getLsbD 9 = false → whole = 0#64 ∧ code = none)) ∧
      ((2 : ℚ) ^ L ≤ |P| → |P| < 2 ^ 127 →
        whole = (roundTo x L true).pack L ∧ part = 0#64 ∧ openBits = 0 ∧ fv = false ∧ code = none) ∧
      (1 ≤ |P| → |P| < 2 ^ L → floatValue whole = (if P < 0 then -1 else 1) * ⌊|P|⌋ ∧ fv = false ∧ code = none ∧
        (P = floatValue whole → part = 0#64 ∧ openBits = 0) ∧
        (P ≠ floatValue whole → openBits = (if fmt = .d then ⌊|P|⌋.toNat.log2 - 2 else 0) ∧
          ∃ g : Exact, g.value = P - floatValue whole ∧ g.den = 1 ∧ part = (roundTo g L s.chop).pack L)) ∧
      (1 / 2 ^ 128 ≤ |P| → |P| < 1 →
        whole = 0#64 ∧ part = (roundTo x L s.chop).pack L ∧ openBits = 0 ∧ fv = false ∧ code = none) ∧
      (0 < |P| → |P| < 1 / 2 ^ 128 → whole = 0#64 ∧ openBits = 0 ∧ fv = false ∧
        (s.fpu.fps.getLsbD 10 = true → code = some 10#4 ∧ ∀ K : ℤ, (2 : ℚ) ^ (K - 1) ≤ |P| → |P| < (2 : ℚ) ^ K →
          part = packFloat (decide (P < 0)) (K + 128) (roundTo x L s.chop).fraction L) ∧
        (s.fpu.fps.getLsbD 10 = false → part = 0#64 ∧ code = none))

/-- LDEXP puts the source, biased by 128, in the exponent field and keeps sign and fraction; above 127 it overflows and below -127
it underflows, which without the trap leave zero, and with it the exponent's low eight bits and exception 8 or 10. STEXP stores the
exponent less 128 and sets both sets of codes. When evaluating, reading or writing the operand raises, that is taken at once (46
R560, R561; 45 R509, R523, R530; 20_memory R156; 60 R600). The spec's own decisions here (log entry 28): FN and FZ are those of the
stored pattern, a wrapped one too (D34); FID holds back the trap request alone (D39); the codes are set last, so that an instruction
that ends early leaves them (D21); a write of the PS's own codes stands (D6). The bit positions of sign, exponent field and fraction
in a pattern are log entry 20, PRESUMED (K12). -/
def Obligations.ExponentMoves : Prop :=
  ∀ (s s1 : State) (f : Operand) (ac : AcField),
    (∀ v, readOp .word f s = .ok v s1 →
      (-127 ≤ v.toInt → v.toInt ≤ 127 → ∃ t, exec (.ldexp ac f) s = .next t ∧
        t.acc (acNumber ac) .d = (s1.acc (acNumber ac) .d).extractLsb' 63 1 ++ BitVec.ofInt 8 (v.toInt + 128) ++
          (s1.acc (acNumber ac) .d).extractLsb' 0 55 ∧
        (∀ m, m ≠ acNumber ac → t.fpu.ac.get m = s1.fpu.ac.get m) ∧
        t = { s1 with fpu := { s1.fpu with
          ac := t.fpu.ac
          fps := s1.fpu.fps.extractLsb' 4 12 ++ (s1.acc (acNumber ac) .d).extractLsb' 63 1 ++ 0#3 } }) ∧
      (127 < v.toInt → s1.fiv = false → exec (.ldexp ac f) s =
        .next ((s1.setAcc (acNumber ac) s1.precision 0#64).withFcc ⟨false, true, true, false⟩)) ∧
      (v.toInt < -127 → s1.fiu = false → exec (.ldexp ac f) s =
        .next ((s1.setAcc (acNumber ac) s1.precision 0#64).withFcc ⟨false, true, false, false⟩)) ∧
      (∀ (tooBig : Bool) (code : BitVec 4),
        (127 < v.toInt ∧ s1.fiv = true ∧ tooBig = true ∧ code = 8#4 ∨
          v.toInt < -127 ∧ s1.fiu = true ∧ tooBig = false ∧ code = 10#4) →
        ∃ t, exec (.ldexp ac f) s = .next t ∧
          t.acc (acNumber ac) .d = (s1.acc (acNumber ac) .d).extractLsb' 63 1 ++ BitVec.ofInt 8 (v.toInt + 128) ++
            (s1.acc (acNumber ac) .d).extractLsb' 0 55 ∧
          (∀ m, m ≠ acNumber ac → t.fpu.ac.get m = s1.fpu.ac.get m) ∧
          t = { s1 with
            fpu := { ac := t.fpu.ac, fec := code, fea := s1.flow.instrAddr,
                     fps := (s1.fpu.fps ||| 0o100000#16).extractLsb' 4 12 ++ (s1.acc (acNumber ac) .d).extractLsb' 63 1 ++
                       BitVec.ofBool (decide ((v.toInt + 128) % 256 = 0)) ++ BitVec.ofBool tooBig ++ 0#1 }
            flow := { s1.flow with pendFp := s1.flow.pendFp || !s1.fpu.fps.getLsbD 14 } })) ∧
    (∀ p n b t, place .word f s = .ok p s1 →
      n = BitVec.ofInt 16 (((s.acc (acNumber ac) .d).extractLsb' 55 8).toNat - 128) → writePlace .word p n s1 = .ok b t →
      exec (.stexp ac f) s = .next ((t.withFcc (codes n false false)).finish b (codes n false false))) ∧
    (∀ e u,
      (readOp .word f s = .error e u → s.EndsEarly [.ldexp ac f] e u) ∧
      (place .word f s = .error e u → s.EndsEarly [.stexp ac f] e u) ∧
      (∀ p n, place .word f s = .ok p s1 → n = BitVec.ofInt 16 (((s.acc (acNumber ac) .d).extractLsb' 55 8).toNat - 128) →
        writePlace .word p n s1 = .error e u → s.EndsEarly [.stexp ac f] e u))

/-- LDCIF, LDCID, LDCLF and LDCLD load an integer: with FL clear a word; with FL set 32 bits, two words of memory high one first, or
the high half alone from a register or an immediate, with the low half 0. It is rounded to the fraction, so exact in double
precision and up to `2 ^ 24` in single. STCFI, STCFL, STCDI and STCDL store the accumulator truncated toward zero, or 0 with C and
FC set when it is out of range, which with FIC set raises exception 6: with FL clear the low word; with FL set two words of memory
high one first, or the high word alone into a register or an immediate. When reading the source or writing the destination raises,
that is taken at once (46 R562, R563; 45 R505, R521 to R523; 20_memory R156; 60 R600). That the codes are set last, so that an
instruction that ends early leaves them, is the spec's own decision D21, and that a write of the PS's own codes stands D6 (log entry
28). The bit positions of a pattern are log entry 20, PRESUMED (K12). -/
def Obligations.IntegerConversions : Prop :=
  ∀ (s s1 t : State) (f : Operand) (ac : AcField) (fmt : FFormat), fmt = s.precision →
    (∀ n : Int, readInteger f s = .ok n s1 → ∀ i ∈ [Instr.ldcif ac f, .ldcid ac f, .ldclf ac f, .ldcld ac f],
      ∃ v, (v = if n = 0 then 0#64 else (roundTo (Exact.ofInt n) fmt.fraction s.chop).pack fmt.fraction) ∧
        (n.natAbs ≤ 2 ^ 24 ∨ (fmt = .d ∧ n.natAbs ≤ 2 ^ 31) → floatValue v = n) ∧
        exec i s = .next (s1.storeResult (acNumber ac) fmt ⟨v, false, none⟩)) ∧
    (s.fpu.fps.getLsbD 6 = false → ∀ v, readOp .word f s = .ok v s1 → readInteger f s = .ok v.toInt s1) ∧
    (s.fpu.fps.getLsbD 6 = true → f.mode = .register → readInteger f s = .ok ((s.reg f.reg).toInt * 65536) s) ∧
    (s.fpu.fps.getLsbD 6 = true → f.mode ≠ .register → ∀ sp a, effectiveAddress f 4 s = .ok (sp, a) s1 → s1.PlainAt a →
      (f.reg = .pc ∧ (f.mode = .autoInc ∨ f.mode = .autoDec) → readInteger f s = .ok ((s1.word a).toInt * 65536) s1) ∧
      (¬(f.reg = .pc ∧ (f.mode = .autoInc ∨ f.mode = .autoDec)) → s1.PlainAt (a + 2#16) →
        readInteger f s = .ok ((s1.word a).toInt * 65536 + (s1.word (a + 2#16)).toNat) s1)) ∧
    (∀ n : BitVec 32, f.mode = .register →
      writeInteger f false n s = .ok false (s.setReg f.reg (n.extractLsb' 0 16)) ∧
      writeInteger f true n s = .ok false (s.setReg f.reg (n.extractLsb' 16 16))) ∧
    (∀ (n : BitVec 32) sp a, f.mode ≠ .register → effectiveAddress f 2 s = .ok (sp, a) s1 → s1.PlainAt a →
      writeInteger f false n s = .ok false (s1.putWord a (n.extractLsb' 0 16))) ∧
    (∀ (n : BitVec 32) sp a, f.mode ≠ .register → effectiveAddress f 4 s = .ok (sp, a) s1 → s1.PlainAt a →
      (f.reg = .pc ∧ (f.mode = .autoInc ∨ f.mode = .autoDec) →
        writeInteger f true n s = .ok false (s1.putWord a (n.extractLsb' 16 16))) ∧
      (¬(f.reg = .pc ∧ (f.mode = .autoInc ∨ f.mode = .autoDec)) → s1.PlainAt (a + 2#16) →
        writeInteger f true n s =
          .ok false ((s1.putWord a (n.extractLsb' 16 16)).putWord (a + 2#16) (n.extractLsb' 0 16)))) ∧
    (∀ (q : ℚ) (n r : Int) (limit : Int) (b long ok : Bool), q = floatValue (s.acc (acNumber ac) fmt) →
      n = (if q < 0 then -⌊-q⌋ else ⌊q⌋) → long = s.fpu.fps.getLsbD 6 → limit = (if long then 2147483647 else 32767) →
      ok = decide (-limit ≤ n ∧ n ≤ limit) → r = (if ok then n else 0) →
      writeInteger f long (BitVec.ofInt 32 r) s = .ok b t →
      ∀ i ∈ [Instr.stcfi ac f, .stcfl ac f, .stcdi ac f, .stcdl ac f], ∀ u : State,
        u = (t.withFcc ⟨decide (r < 0), decide (r = 0), false, !ok⟩).finish b ⟨decide (r < 0), decide (r = 0), false, !ok⟩ →
        exec i s = .next (if ok = false ∧ u.fpu.fps.getLsbD 8 = true then u.floatException 6#4 else u)) ∧
    (∀ e,
      (readInteger f s = .error e t → s.EndsEarly [.ldcif ac f, .ldcid ac f, .ldclf ac f, .ldcld ac f] e t) ∧
      (s.fpu.fps.getLsbD 6 = false → readOp .word f s = .error e t → readInteger f s = .error e t) ∧
      (s.fpu.fps.getLsbD 6 = true → f.mode ≠ .register → effectiveAddress f 4 s = .error e t → readInteger f s = .error e t) ∧
      (∀ (q : ℚ) (n r limit : Int) (long : Bool), q = floatValue (s.acc (acNumber ac) fmt) →
        n = (if q < 0 then -⌊-q⌋ else ⌊q⌋) → long = s.fpu.fps.getLsbD 6 → limit = (if long then 2147483647 else 32767) →
        r = (if -limit ≤ n ∧ n ≤ limit then n else 0) → writeInteger f long (BitVec.ofInt 32 r) s = .error e t →
        s.EndsEarly [.stcfi ac f, .stcfl ac f, .stcdi ac f, .stcdl ac f] e t))

/-- LDCDF, LDCFD, STCFD and STCDF change the precision: a zero becomes the clean zero, a single number is extended with zeros, a
double number is rounded to 24 bits, and when that rounds up past the largest exponent it overflows; the store sets FN and FZ from
the accumulator, as it is after the store, which is log entry 29, DEDUCED. When evaluating, reading or writing the operand raises,
or ends the instruction, that is the end of it (46 R564, R565; 45 R509, R524; 20_memory R156; 60 R600). That FN and FZ
are those of a pattern's sign and exponent field is the spec's own decision D34 (log entry 28); the bit positions of sign, exponent
field and fraction in a pattern are log entry 20, PRESUMED (K12). -/
def Obligations.FormatConversions : Prop :=
  ∀ (s s1 : State) (f : Operand) (ac : AcField) (convert : BitVec 64 → FFormat → FResult),
    (∀ v fmt, convert v fmt =
      if v.extractLsb' 55 8 = 0#8 then ⟨0#64, false, none⟩
      else match fmt with
        | .d => ⟨v, false, none⟩
        | .f =>
          let r := roundTo (Exact.ofPattern v) 24 s.chop
          if r.biased ≤ 255 then ⟨r.pack 24, false, none⟩
          else if s.fiv then ⟨BitVec.ofBool r.neg ++ 0#63, true, some 8#4⟩ else ⟨0#64, true, none⟩) →
    (∀ v, readFloatSource f s.precision.other s = .ok v s1 → ∀ i ∈ [Instr.ldcdf ac f, .ldcfd ac f],
      exec i s = .next (s1.storeResult (acNumber ac) s.precision (convert v s.precision))) ∧
    (∀ a r p t, a = s.acc (acNumber ac) s.precision → r = convert a s.precision.other →
      floatPlace f s.precision.other s = .ok p s1 → writeFloatPlace f s.precision.other p r.value s1 = .ok () t →
      ∀ i ∈ [Instr.stcfd ac f, .stcdf ac f], ∃ u, u = (match r.code with
          | none => t
          | some c => t.floatException c) ∧
        exec i s = .next (u.withFcc (floatCc (t.acc (acNumber ac) s.precision) r.fv false))) ∧
    (∀ e u,
      (readFloatSource f s.precision.other s = .error e u → s.EndsEarly [.ldcdf ac f, .ldcfd ac f] e u) ∧
      (floatPlace f s.precision.other s = .error e u → s.EndsEarly [.stcfd ac f, .stcdf ac f] e u) ∧
      (∀ r p, r = convert (s.acc (acNumber ac) s.precision) s.precision.other → floatPlace f s.precision.other s = .ok p s1 →
        writeFloatPlace f s.precision.other p r.value s1 = .error e u → s.EndsEarly [.stcfd ac f, .stcdf ac f] e u))

end Statements
end

