-- ==== Sys2Proof/Laws/Memory.lean ====
section
/-! SUPPORT. The laws of storage: a byte written reads back, no other byte changes, and every operation keeps the canonical
form, in which equal contents are equal lists. -/

namespace Sys2Proof.Machine.Memory

/-- A canonical memory lists no address below its bound. -/
theorem read_of_lt {lo a : Nat} {m : Memory} (h : wfFrom lo m = true) (ha : a < lo) : read m a = unlisted := by
  induction m generalizing lo with
  | nil => rfl
  | cons c rest ih =>
    simp only [wfFrom, Bool.and_eq_true, decide_eq_true_eq] at h
    have : c.1 ≠ a := by omega
    simp only [read, this, if_false]
    exact ih h.2 (by omega)

theorem wfFrom_mono {lo lo' : Nat} {m : Memory} (h : wfFrom lo m = true) (hl : lo' ≤ lo) : wfFrom lo' m = true := by
  cases m with
  | nil => rfl
  | cons c rest =>
    simp only [wfFrom, Bool.and_eq_true, decide_eq_true_eq] at h ⊢
    exact ⟨⟨by omega, h.1.2⟩, h.2⟩

theorem wfFrom_write {lo a : Nat} {m : Memory} (v : Byte) (h : wfFrom lo m = true) (ha : lo ≤ a) :
    wfFrom lo (write m a v) = true := by
  induction m generalizing lo with
  | nil =>
    unfold write
    split <;> simp_all [wfFrom]
  | cons c rest ih =>
    simp only [wfFrom, Bool.and_eq_true, decide_eq_true_eq] at h
    simp only [write]
    split
    · split
      · simp only [wfFrom, Bool.and_eq_true, decide_eq_true_eq]; exact h
      · simp only [wfFrom, Bool.and_eq_true, decide_eq_true_eq]
        exact ⟨⟨ha, ‹_›⟩, ⟨by omega, h.1.2⟩, h.2⟩
    · split
      · split
        · exact wfFrom_mono h.2 (by omega)
        · simp only [wfFrom, Bool.and_eq_true, decide_eq_true_eq]
          exact ⟨⟨ha, ‹_›⟩, by subst_vars; exact h.2⟩
      · simp only [wfFrom, Bool.and_eq_true, decide_eq_true_eq]
        exact ⟨h.1, ih h.2 (by omega)⟩

/-- A write keeps the canonical form. -/
theorem wf_write {m : Memory} (a : Nat) (v : Byte) (h : wf m = true) : wf (write m a v) = true :=
  wfFrom_write v h (Nat.zero_le a)

/-- A byte written reads back. -/
theorem read_write_same {lo : Nat} {m : Memory} (a : Nat) (v : Byte) (h : wfFrom lo m = true) :
    read (write m a v) a = v := by
  induction m generalizing lo with
  | nil =>
    unfold write
    split <;> simp_all [read]
  | cons c rest ih =>
    simp only [wfFrom, Bool.and_eq_true, decide_eq_true_eq] at h
    simp only [write]
    split
    · split
      · have : c.1 ≠ a := by omega
        simp only [read, this, if_false]
        rw [read_of_lt h.2 (by omega)]; exact Eq.symm ‹_›
      · simp [read]
    · split
      · split
        · rw [read_of_lt h.2 (by omega)]; exact Eq.symm ‹_›
        · simp [read]
      · have : c.1 ≠ a := by omega
        simp only [read, this, if_false]
        exact ih h.2

/-- A write changes no other byte. -/
theorem read_write_ne {m : Memory} {a b : Nat} (v : Byte) (hab : b ≠ a) : read (write m a v) b = read m b := by
  induction m with
  | nil =>
    unfold write
    split
    · rfl
    · simp [read, Ne.symm hab]
  | cons c rest ih =>
    simp only [write]
    split
    · split
      · rfl
      · simp [read, Ne.symm hab]
    · split
      · have : c.1 ≠ b := by omega
        split
        · simp [read, this]
        · simp [read, this, Ne.symm hab]
      · simp only [read, ih]

theorem read_write {m : Memory} {a b : Nat} (v : Byte) (h : wf m = true) :
    read (write m a v) b = if b = a then v else read m b := by
  split
  · subst_vars; exact read_write_same _ v h
  · exact read_write_ne v ‹_›

/-- In the canonical form equal contents are equal lists. -/
theorem ext_of_read {lo lo' : Nat} {m m' : Memory} (h : wfFrom lo m = true) (h' : wfFrom lo' m' = true)
    (hr : ∀ a, read m a = read m' a) : m = m' := by
  induction m generalizing lo lo' m' with
  | nil =>
    cases m' with
    | nil => rfl
    | cons c rest =>
      simp only [wfFrom, Bool.and_eq_true, decide_eq_true_eq] at h'
      have := hr c.1
      simp only [read, if_true] at this
      exact absurd this.symm h'.1.2
  | cons c rest ih =>
    simp only [wfFrom, Bool.and_eq_true, decide_eq_true_eq] at h
    cases m' with
    | nil =>
      have := hr c.1
      simp only [read, if_true] at this
      exact absurd this h.1.2
    | cons c' rest' =>
      simp only [wfFrom, Bool.and_eq_true, decide_eq_true_eq] at h'
      have e1 := hr c.1
      have e2 := hr c'.1
      simp only [read, if_true] at e1 e2
      have hc : c.1 = c'.1 := by
        rcases Nat.lt_trichotomy c.1 c'.1 with hlt | heq | hgt
        · rw [if_neg (by omega), read_of_lt h'.2 (by omega)] at e1
          exact absurd e1 h.1.2
        · exact heq
        · rw [if_neg (by omega), read_of_lt h.2 (by omega)] at e2
          exact absurd e2.symm h'.1.2
      rw [if_pos hc.symm] at e1
      have hcc : c = c' := Prod.ext hc e1
      subst hcc
      congr 1
      refine ih h.2 h'.2 fun a => ?_
      by_cases ha : a < c.1 + 1
      · rw [read_of_lt h.2 ha, read_of_lt h'.2 ha]
      · have := hr a
        have hne : c.1 ≠ a := by omega
        simpa only [read, hne, if_false] using this

/-! Words and stores. -/

theorem wf_writeWord {m : Memory} (a : Nat) (v : Word) (h : wf m = true) : wf (writeWord m a v) = true :=
  wf_write _ _ (wf_write _ _ h)

theorem read_writeWord {m : Memory} {a b : Nat} (v : Word) (h : wf m = true) :
    read (writeWord m a v) b =
      if b = a + 1 then v.extractLsb' 8 8 else if b = a then v.extractLsb' 0 8 else read m b := by
  simp only [writeWord]
  rw [read_write _ (wf_write _ _ h), read_write _ h]

/-- A word write changes no byte outside the word. -/
theorem read_writeWord_ne {m : Memory} {a b : Nat} (v : Word) (h0 : b ≠ a) (h1 : b ≠ a + 1) :
    read (writeWord m a v) b = read m b := by
  simp only [writeWord]
  rw [read_write_ne _ h1, read_write_ne _ h0]

/-- A word written reads back. -/
theorem readWord_writeWord {m : Memory} (a : Nat) (v : Word) (h : wf m = true) : readWord (writeWord m a v) a = v := by
  simp only [readWord, read_writeWord v h]
  simp only [if_true, Nat.left_eq_add, Nat.one_ne_zero, if_false]
  ext i hi
  simp only [BitVec.getElem_append, BitVec.getElem_extractLsb']
  split
  · simp [BitVec.getLsbD_eq_getElem, hi]
  · simp only [BitVec.getLsbD_eq_getElem hi, show 8 + (i - 8) = i by omega]

theorem readWord_writeWord_ne {m : Memory} {a b : Nat} (v : Word) (h0 : b ≠ a) (h1 : b ≠ a + 1) (h2 : b + 1 ≠ a) :
    readWord (writeWord m a v) b = readWord m b := by
  simp only [readWord]
  rw [read_writeWord_ne v h0 h1, read_writeWord_ne v (by omega) (by omega)]

/-- Every store keeps the canonical form. -/
theorem wf_store {m : Memory} (sz : Size) (a : PAddr) (v : Word) (h : wf m = true) : wf (store m sz a v) = true := by
  cases sz
  · exact wf_write _ _ h
  · exact wf_writeWord _ _ h

/-! Every listed address stays below a bound. -/

theorem lt_of_mem_write {m : Memory} {a n : Nat} {v : Byte} (h : ∀ c ∈ m, c.1 < n) (ha : a < n) :
    ∀ c ∈ write m a v, c.1 < n := by
  induction m with
  | nil =>
    unfold write
    split <;> simp [ha]
  | cons x rest ih =>
    have hx := h x (by simp)
    have hr : ∀ c ∈ rest, c.1 < n := fun c hc => h c (by simp [hc])
    simp only [write]
    split
    · split
      · exact h
      · simpa [ha, hx] using hr
    · split
      · split
        · exact hr
        · simpa [ha] using hr
      · simpa [hx] using ih hr

theorem lt_of_mem_writeWord {m : Memory} {a n : Nat} {v : Word} (h : ∀ c ∈ m, c.1 < n) (ha : a + 1 < n) :
    ∀ c ∈ writeWord m a v, c.1 < n :=
  lt_of_mem_write (lt_of_mem_write h (by omega)) ha

theorem wordAddr_toNat_lt (a : PAddr) : (wordAddr a).toNat + 1 < 2 ^ 22 := by
  have h : (wordAddr a).toNat % 2 = 0 := by
    have : (wordAddr a).getLsbD 0 = false := by simp [wordAddr]
    simpa [BitVec.getLsbD, Nat.testBit_zero] using this
  have := (wordAddr a).isLt
  omega

theorem lt_of_mem_store {m : Memory} {sz : Size} {a : PAddr} {v : Word} (h : ∀ c ∈ m, c.1 < 2 ^ 22) :
    ∀ c ∈ store m sz a v, c.1 < 2 ^ 22 := by
  cases sz
  · exact lt_of_mem_write h a.isLt
  · exact lt_of_mem_writeWord h (wordAddr_toNat_lt a)

/-- A store changes no byte outside the word it goes to. -/
theorem read_store_ne {m : Memory} {sz : Size} {a : PAddr} {v : Word} {b : Nat} (h0 : b ≠ (wordAddr a).toNat)
    (h1 : b ≠ (wordAddr a).toNat + 1) (h : b ≠ a.toNat) : read (store m sz a v) b = read m b := by
  cases sz
  · exact read_write_ne _ h
  · exact read_writeWord_ne _ h0 h1

/-- Storage built from any cells is in its canonical form and inside the physical address space. -/
theorem ofCells_canonical (cells : List (PAddr × Byte)) : wf (ofCells cells) = true ∧ ∀ c ∈ ofCells cells, c.1 < 2 ^ 22 := by
  suffices key : ∀ (cs : List (PAddr × Byte)) (m : Memory), wf m = true ∧ (∀ c ∈ m, c.1 < 2 ^ 22) →
      wf (cs.foldl (fun m c => write m c.1.toNat c.2) m) = true ∧
        ∀ c ∈ cs.foldl (fun m c => write m c.1.toNat c.2) m, c.1 < 2 ^ 22 from
    key cells [] ⟨rfl, fun _ h => absurd h (List.not_mem_nil)⟩
  intro cs
  induction cs with
  | nil => exact fun _ h => h
  | cons c cs ih => exact fun m h => ih _ ⟨wf_write _ _ h.1, lt_of_mem_write h.2 c.1.isLt⟩

end Sys2Proof.Machine.Memory
end

