-- ==== Sys2Proof/Laws/Run.lean ====
section
/-! SUPPORT. Running the pieces of an instruction: one equation for each building block, the rule for a sequence, and the
rule by which a relation between states is kept by a whole body because each of its pieces keeps it. -/

namespace Sys2Proof.Machine

variable {α β : Type}

/-! ## Equations -/

@[simp] theorem run_pure (a : α) (s : State) : (pure a : M α) s = .ok a s := rfl
@[simp] theorem run_raise (e : Event) (s : State) : (raise e : M α) s = .error (.raise e) s := rfl
@[simp] theorem run_end (s : State) : (endInstruction : M α) s = .error .ended s := rfl
@[simp] theorem run_update (f : State → State) (s : State) : update f s = .ok () (f s) := rfl
@[simp] theorem run_look (f : State → α) (s : State) : look f s = .ok (f s) s := rfl
@[simp] theorem run_draw (f : Nat → α) (s : State) : draw f s = .ok (f s.draws) { s with draws := s.draws + 1 } := rfl

/-- A sequence goes on from where its first part came to. -/
theorem run_bind (m : M α) (f : α → M β) (s : State) :
    (m >>= f) s = match m s with
      | .ok a s' => f a s'
      | .error e s' => .error e s' := by
  show EStateM.bind m f s = _
  unfold EStateM.bind
  cases m s <;> rfl

theorem run_bind_ok {m : M α} {f : α → M β} {s s' : State} {a : α} (h : m s = .ok a s') : (m >>= f) s = f a s' := by
  rw [run_bind, h]

theorem run_bind_error {m : M α} {f : α → M β} {s s' : State} {e : Exit} (h : m s = .error e s') :
    (m >>= f) s = .error e s' := by
  rw [run_bind, h]

@[simp] theorem run_update_bind (g : State → State) (f : Unit → M β) (s : State) : (update g >>= f) s = f () (g s) := rfl
@[simp] theorem run_look_bind (g : State → α) (f : α → M β) (s : State) : (look g >>= f) s = f (g s) s := rfl
@[simp] theorem run_pure_bind (a : α) (f : α → M β) (s : State) : ((pure a : M α) >>= f) s = f a s := rfl
@[simp] theorem run_draw_bind (g : Nat → α) (f : α → M β) (s : State) :
    (draw g >>= f) s = f (g s.draws) { s with draws := s.draws + 1 } := rfl

/-- A sequence that succeeds did each of its parts. -/
theorem bind_eq_ok {m : M α} {f : α → M β} {s t : State} {b : β} (h : (m >>= f) s = .ok b t) :
    ∃ a s1, m s = .ok a s1 ∧ f a s1 = .ok b t := by
  rw [run_bind] at h
  cases hm : m s with
  | ok a s1 => rw [hm] at h; exact ⟨a, s1, rfl, h⟩
  | error e s1 => rw [hm] at h; cases h

/-- A sequence that exits does so in its first part, or in the second after the first succeeded. -/
theorem bind_eq_error {m : M α} {f : α → M β} {s t : State} {e : Exit} (h : (m >>= f) s = .error e t) :
    m s = .error e t ∨ ∃ a s1, m s = .ok a s1 ∧ f a s1 = .error e t := by
  rw [run_bind] at h
  cases hm : m s with
  | ok a s1 => rw [hm] at h; exact .inr ⟨a, s1, rfl, h⟩
  | error e' s1 => rw [hm] at h; cases h; exact .inl rfl

/-- A body that ends well is the instruction's next state. -/
theorem runBody_ok {body : M Unit} {s t : State} (h : body s = .ok () t) : runBody body s = t := by
  simp only [runBody, h]

theorem runBody_ended {body : M Unit} {s t : State} (h : body s = .error .ended t) : runBody body s = t := by
  simp only [runBody, h]

/-- A body that raises is taken at once. -/
theorem runBody_raise {body : M Unit} {s t : State} {e : Event} (h : body s = .error (.raise e) t) :
    runBody body s = t.takeEvent e := by
  simp only [runBody, h]

theorem complete_ok {body : M Unit} {s t : State} (h : body s = .ok () t) : complete body s = .next t := by
  simp only [complete, runBody_ok h]

theorem complete_ended {body : M Unit} {s t : State} (h : body s = .error .ended t) : complete body s = .next t := by
  simp only [complete, runBody_ended h]

theorem complete_raise {body : M Unit} {s t : State} {e : Event} (h : body s = .error (.raise e) t) :
    complete body s = .next (t.takeEvent e) := by
  simp only [complete, runBody_raise h]

/-! ## Relations that a body keeps -/

/-- Where a piece leaves the state, whether it goes on or exits. -/
def finalState : EStateM.Result Exit State α → State
  | .ok _ s => s
  | .error _ s => s

/-- A relation that holds across nothing and across two steps in a row. -/
structure Chained (R : State → State → Prop) : Prop where
  refl : ∀ s, R s s
  trans : ∀ {a b c}, R a b → R b c → R a c

/-- Every run of the piece stays within the relation. -/
def Within (R : State → State → Prop) (m : M α) : Prop := ∀ s, R s (finalState (m s))

section
variable {R : State → State → Prop}

theorem Within.ok {m : M α} {s t : State} {a : α} (h : Within R m) (hm : m s = .ok a t) : R s t := by
  have := h s; rwa [hm] at this

theorem Within.error {m : M α} {s t : State} {e : Exit} (h : Within R m) (hm : m s = .error e t) : R s t := by
  have := h s; rwa [hm] at this

theorem Within.pure (hR : Chained R) (a : α) : Within R (Pure.pure a : M α) := fun s => hR.refl s

theorem Within.raise (hR : Chained R) (e : Event) : Within R (Machine.raise e : M α) := fun s => hR.refl s

theorem Within.ended (hR : Chained R) : Within R (endInstruction : M α) := fun s => hR.refl s

theorem Within.look (hR : Chained R) (f : State → α) : Within R (Machine.look f) := fun s => hR.refl s

theorem Within.update {f : State → State} (h : ∀ s, R s (f s)) : Within R (Machine.update f) := h

theorem Within.draw {f : Nat → α} (h : ∀ s : State, R s { s with draws := s.draws + 1 }) : Within R (Machine.draw f) := h

theorem Within.bind (hR : Chained R) {m : M α} {f : α → M β} (hm : Within R m) (hf : ∀ a, Within R (f a)) :
    Within R (m >>= f) := by
  intro s
  rw [run_bind]
  have h1 := hm s
  cases h : m s with
  | ok a s1 => rw [h] at h1; exact hR.trans h1 (hf a s1)
  | error e s1 => rw [h] at h1; exact h1

theorem Within.ite {c : Prop} [Decidable c] {m m' : M α} (h : Within R m) (h' : Within R m') :
    Within R (if c then m else m') := by
  split <;> assumption

end

end Sys2Proof.Machine
end

