-- ==== Sys2Proof/Laws/State.lean ====
section
/-! SUPPORT. One lemma for each field and each named update of the state, so that no proof unfolds a record update. -/

namespace Sys2Proof.Machine

namespace State

variable (s : State)

/-! `writePs` -/

@[simp] theorem writePs_regs (mask v : Word) : (s.writePs mask v).regs = s.regs := rfl
@[simp] theorem writePs_ps (mask v : Word) : (s.writePs mask v).ps = mergeBits s.ps mask v := rfl
@[simp] theorem writePs_sys (mask v : Word) : (s.writePs mask v).sys = s.sys := rfl
@[simp] theorem writePs_mmu (mask v : Word) : (s.writePs mask v).mmu = s.mmu := rfl
@[simp] theorem writePs_fpu (mask v : Word) : (s.writePs mask v).fpu = s.fpu := rfl
@[simp] theorem writePs_mem (mask v : Word) : (s.writePs mask v).mem = s.mem := rfl
@[simp] theorem writePs_flow (mask v : Word) : (s.writePs mask v).flow = { s.flow with prefetchFault := true } := rfl
@[simp] theorem writePs_phase (mask v : Word) : (s.writePs mask v).phase = s.phase := rfl
@[simp] theorem writePs_plat (mask v : Word) : (s.writePs mask v).plat = s.plat := rfl
@[simp] theorem writePs_lines (mask v : Word) : (s.writePs mask v).lines = s.lines := rfl
@[simp] theorem writePs_script (mask v : Word) : (s.writePs mask v).script = s.script := rfl
@[simp] theorem writePs_answers (mask v : Word) : (s.writePs mask v).answers = s.answers := rfl
@[simp] theorem writePs_io (mask v : Word) : (s.writePs mask v).io = s.io := rfl
@[simp] theorem writePs_draws (mask v : Word) : (s.writePs mask v).draws = s.draws := rfl

/-! `withCc` -/

@[simp] theorem withCc_regs (k : Cc) : (s.withCc k).regs = s.regs := rfl
@[simp] theorem withCc_ps (k : Cc) : (s.withCc k).ps = mergeBits s.ps 0o17#16 (k.bits.setWidth 16) := rfl
@[simp] theorem withCc_sys (k : Cc) : (s.withCc k).sys = s.sys := rfl
@[simp] theorem withCc_mmu (k : Cc) : (s.withCc k).mmu = s.mmu := rfl
@[simp] theorem withCc_fpu (k : Cc) : (s.withCc k).fpu = s.fpu := rfl
@[simp] theorem withCc_mem (k : Cc) : (s.withCc k).mem = s.mem := rfl
@[simp] theorem withCc_flow (k : Cc) : (s.withCc k).flow = s.flow := rfl
@[simp] theorem withCc_phase (k : Cc) : (s.withCc k).phase = s.phase := rfl
@[simp] theorem withCc_plat (k : Cc) : (s.withCc k).plat = s.plat := rfl
@[simp] theorem withCc_lines (k : Cc) : (s.withCc k).lines = s.lines := rfl
@[simp] theorem withCc_script (k : Cc) : (s.withCc k).script = s.script := rfl
@[simp] theorem withCc_answers (k : Cc) : (s.withCc k).answers = s.answers := rfl
@[simp] theorem withCc_io (k : Cc) : (s.withCc k).io = s.io := rfl
@[simp] theorem withCc_draws (k : Cc) : (s.withCc k).draws = s.draws := rfl

/-! `setGprN` -/

@[simp] theorem setGprN_regs (n : Fin 6) (v : Word) : (s.setGprN n v).regs = { s.regs with gpr := s.regs.gpr.set (s.gprSlot n).val v (s.gprSlot n).isLt } := rfl
@[simp] theorem setGprN_ps (n : Fin 6) (v : Word) : (s.setGprN n v).ps = s.ps := rfl
@[simp] theorem setGprN_sys (n : Fin 6) (v : Word) : (s.setGprN n v).sys = s.sys := rfl
@[simp] theorem setGprN_mmu (n : Fin 6) (v : Word) : (s.setGprN n v).mmu = s.mmu := rfl
@[simp] theorem setGprN_fpu (n : Fin 6) (v : Word) : (s.setGprN n v).fpu = s.fpu := rfl
@[simp] theorem setGprN_mem (n : Fin 6) (v : Word) : (s.setGprN n v).mem = s.mem := rfl
@[simp] theorem setGprN_flow (n : Fin 6) (v : Word) : (s.setGprN n v).flow = s.flow := rfl
@[simp] theorem setGprN_phase (n : Fin 6) (v : Word) : (s.setGprN n v).phase = s.phase := rfl
@[simp] theorem setGprN_plat (n : Fin 6) (v : Word) : (s.setGprN n v).plat = s.plat := rfl
@[simp] theorem setGprN_lines (n : Fin 6) (v : Word) : (s.setGprN n v).lines = s.lines := rfl
@[simp] theorem setGprN_script (n : Fin 6) (v : Word) : (s.setGprN n v).script = s.script := rfl
@[simp] theorem setGprN_answers (n : Fin 6) (v : Word) : (s.setGprN n v).answers = s.answers := rfl
@[simp] theorem setGprN_io (n : Fin 6) (v : Word) : (s.setGprN n v).io = s.io := rfl
@[simp] theorem setGprN_draws (n : Fin 6) (v : Word) : (s.setGprN n v).draws = s.draws := rfl

/-! `setPc` -/

@[simp] theorem setPc_regs (v : Word) : (s.setPc v).regs = { s.regs with pc := v } := rfl
@[simp] theorem setPc_ps (v : Word) : (s.setPc v).ps = s.ps := rfl
@[simp] theorem setPc_sys (v : Word) : (s.setPc v).sys = s.sys := rfl
@[simp] theorem setPc_mmu (v : Word) : (s.setPc v).mmu = s.mmu := rfl
@[simp] theorem setPc_fpu (v : Word) : (s.setPc v).fpu = s.fpu := rfl
@[simp] theorem setPc_mem (v : Word) : (s.setPc v).mem = s.mem := rfl
@[simp] theorem setPc_flow (v : Word) : (s.setPc v).flow = s.flow := rfl
@[simp] theorem setPc_phase (v : Word) : (s.setPc v).phase = s.phase := rfl
@[simp] theorem setPc_plat (v : Word) : (s.setPc v).plat = s.plat := rfl
@[simp] theorem setPc_lines (v : Word) : (s.setPc v).lines = s.lines := rfl
@[simp] theorem setPc_script (v : Word) : (s.setPc v).script = s.script := rfl
@[simp] theorem setPc_answers (v : Word) : (s.setPc v).answers = s.answers := rfl
@[simp] theorem setPc_io (v : Word) : (s.setPc v).io = s.io := rfl
@[simp] theorem setPc_draws (v : Word) : (s.setPc v).draws = s.draws := rfl

/-! `jump` -/

@[simp] theorem jump_regs (v : Word) : (s.jump v).regs = { s.regs with pc := v } := rfl
@[simp] theorem jump_ps (v : Word) : (s.jump v).ps = s.ps := rfl
@[simp] theorem jump_sys (v : Word) : (s.jump v).sys = s.sys := rfl
@[simp] theorem jump_mmu (v : Word) : (s.jump v).mmu = s.mmu := rfl
@[simp] theorem jump_fpu (v : Word) : (s.jump v).fpu = s.fpu := rfl
@[simp] theorem jump_mem (v : Word) : (s.jump v).mem = s.mem := rfl
@[simp] theorem jump_flow (v : Word) : (s.jump v).flow = { s.flow with prefetchFault := true } := rfl
@[simp] theorem jump_phase (v : Word) : (s.jump v).phase = s.phase := rfl
@[simp] theorem jump_plat (v : Word) : (s.jump v).plat = s.plat := rfl
@[simp] theorem jump_lines (v : Word) : (s.jump v).lines = s.lines := rfl
@[simp] theorem jump_script (v : Word) : (s.jump v).script = s.script := rfl
@[simp] theorem jump_answers (v : Word) : (s.jump v).answers = s.answers := rfl
@[simp] theorem jump_io (v : Word) : (s.jump v).io = s.io := rfl
@[simp] theorem jump_draws (v : Word) : (s.jump v).draws = s.draws := rfl

/-! `setCpuerr` -/

@[simp] theorem setCpuerr_regs (bits : Word) : (s.setCpuerr bits).regs = s.regs := rfl
@[simp] theorem setCpuerr_ps (bits : Word) : (s.setCpuerr bits).ps = s.ps := rfl
@[simp] theorem setCpuerr_sys (bits : Word) : (s.setCpuerr bits).sys = { s.sys with cpuerr := s.sys.cpuerr ||| bits } := rfl
@[simp] theorem setCpuerr_mmu (bits : Word) : (s.setCpuerr bits).mmu = s.mmu := rfl
@[simp] theorem setCpuerr_fpu (bits : Word) : (s.setCpuerr bits).fpu = s.fpu := rfl
@[simp] theorem setCpuerr_mem (bits : Word) : (s.setCpuerr bits).mem = s.mem := rfl
@[simp] theorem setCpuerr_flow (bits : Word) : (s.setCpuerr bits).flow = s.flow := rfl
@[simp] theorem setCpuerr_phase (bits : Word) : (s.setCpuerr bits).phase = s.phase := rfl
@[simp] theorem setCpuerr_plat (bits : Word) : (s.setCpuerr bits).plat = s.plat := rfl
@[simp] theorem setCpuerr_lines (bits : Word) : (s.setCpuerr bits).lines = s.lines := rfl
@[simp] theorem setCpuerr_script (bits : Word) : (s.setCpuerr bits).script = s.script := rfl
@[simp] theorem setCpuerr_answers (bits : Word) : (s.setCpuerr bits).answers = s.answers := rfl
@[simp] theorem setCpuerr_io (bits : Word) : (s.setCpuerr bits).io = s.io := rfl
@[simp] theorem setCpuerr_draws (bits : Word) : (s.setCpuerr bits).draws = s.draws := rfl

/-! `requestYellow` -/

@[simp] theorem requestYellow_regs : (s.requestYellow).regs = s.regs := rfl
@[simp] theorem requestYellow_ps : (s.requestYellow).ps = s.ps := rfl
@[simp] theorem requestYellow_sys : (s.requestYellow).sys = s.sys := rfl
@[simp] theorem requestYellow_mmu : (s.requestYellow).mmu = s.mmu := rfl
@[simp] theorem requestYellow_fpu : (s.requestYellow).fpu = s.fpu := rfl
@[simp] theorem requestYellow_mem : (s.requestYellow).mem = s.mem := rfl
@[simp] theorem requestYellow_flow : (s.requestYellow).flow = { s.flow with pendYellow := true } := rfl
@[simp] theorem requestYellow_phase : (s.requestYellow).phase = s.phase := rfl
@[simp] theorem requestYellow_plat : (s.requestYellow).plat = s.plat := rfl
@[simp] theorem requestYellow_lines : (s.requestYellow).lines = s.lines := rfl
@[simp] theorem requestYellow_script : (s.requestYellow).script = s.script := rfl
@[simp] theorem requestYellow_answers : (s.requestYellow).answers = s.answers := rfl
@[simp] theorem requestYellow_io : (s.requestYellow).io = s.io := rfl
@[simp] theorem requestYellow_draws : (s.requestYellow).draws = s.draws := rfl

/-! `requestTrace` -/

@[simp] theorem requestTrace_regs : (s.requestTrace).regs = s.regs := rfl
@[simp] theorem requestTrace_ps : (s.requestTrace).ps = s.ps := rfl
@[simp] theorem requestTrace_sys : (s.requestTrace).sys = s.sys := rfl
@[simp] theorem requestTrace_mmu : (s.requestTrace).mmu = s.mmu := rfl
@[simp] theorem requestTrace_fpu : (s.requestTrace).fpu = s.fpu := rfl
@[simp] theorem requestTrace_mem : (s.requestTrace).mem = s.mem := rfl
@[simp] theorem requestTrace_flow : (s.requestTrace).flow = { s.flow with pendTrace := true } := rfl
@[simp] theorem requestTrace_phase : (s.requestTrace).phase = s.phase := rfl
@[simp] theorem requestTrace_plat : (s.requestTrace).plat = s.plat := rfl
@[simp] theorem requestTrace_lines : (s.requestTrace).lines = s.lines := rfl
@[simp] theorem requestTrace_script : (s.requestTrace).script = s.script := rfl
@[simp] theorem requestTrace_answers : (s.requestTrace).answers = s.answers := rfl
@[simp] theorem requestTrace_io : (s.requestTrace).io = s.io := rfl
@[simp] theorem requestTrace_draws : (s.requestTrace).draws = s.draws := rfl

/-! `requestFp` -/

@[simp] theorem requestFp_regs : (s.requestFp).regs = s.regs := rfl
@[simp] theorem requestFp_ps : (s.requestFp).ps = s.ps := rfl
@[simp] theorem requestFp_sys : (s.requestFp).sys = s.sys := rfl
@[simp] theorem requestFp_mmu : (s.requestFp).mmu = s.mmu := rfl
@[simp] theorem requestFp_fpu : (s.requestFp).fpu = s.fpu := rfl
@[simp] theorem requestFp_mem : (s.requestFp).mem = s.mem := rfl
@[simp] theorem requestFp_flow : (s.requestFp).flow = { s.flow with pendFp := true } := rfl
@[simp] theorem requestFp_phase : (s.requestFp).phase = s.phase := rfl
@[simp] theorem requestFp_plat : (s.requestFp).plat = s.plat := rfl
@[simp] theorem requestFp_lines : (s.requestFp).lines = s.lines := rfl
@[simp] theorem requestFp_script : (s.requestFp).script = s.script := rfl
@[simp] theorem requestFp_answers : (s.requestFp).answers = s.answers := rfl
@[simp] theorem requestFp_io : (s.requestFp).io = s.io := rfl
@[simp] theorem requestFp_draws : (s.requestFp).draws = s.draws := rfl

/-! `requestParity` -/

@[simp] theorem requestParity_regs : (s.requestParity).regs = s.regs := rfl
@[simp] theorem requestParity_ps : (s.requestParity).ps = s.ps := rfl
@[simp] theorem requestParity_sys : (s.requestParity).sys = s.sys := rfl
@[simp] theorem requestParity_mmu : (s.requestParity).mmu = s.mmu := rfl
@[simp] theorem requestParity_fpu : (s.requestParity).fpu = s.fpu := rfl
@[simp] theorem requestParity_mem : (s.requestParity).mem = s.mem := rfl
@[simp] theorem requestParity_flow : (s.requestParity).flow = { s.flow with pendParity := true } := rfl
@[simp] theorem requestParity_phase : (s.requestParity).phase = s.phase := rfl
@[simp] theorem requestParity_plat : (s.requestParity).plat = s.plat := rfl
@[simp] theorem requestParity_lines : (s.requestParity).lines = s.lines := rfl
@[simp] theorem requestParity_script : (s.requestParity).script = s.script := rfl
@[simp] theorem requestParity_answers : (s.requestParity).answers = s.answers := rfl
@[simp] theorem requestParity_io : (s.requestParity).io = s.io := rfl
@[simp] theorem requestParity_draws : (s.requestParity).draws = s.draws := rfl

/-! `faultPrefetch` -/

@[simp] theorem faultPrefetch_regs : (s.faultPrefetch).regs = s.regs := rfl
@[simp] theorem faultPrefetch_ps : (s.faultPrefetch).ps = s.ps := rfl
@[simp] theorem faultPrefetch_sys : (s.faultPrefetch).sys = s.sys := rfl
@[simp] theorem faultPrefetch_mmu : (s.faultPrefetch).mmu = s.mmu := rfl
@[simp] theorem faultPrefetch_fpu : (s.faultPrefetch).fpu = s.fpu := rfl
@[simp] theorem faultPrefetch_mem : (s.faultPrefetch).mem = s.mem := rfl
@[simp] theorem faultPrefetch_flow : (s.faultPrefetch).flow = { s.flow with prefetchFault := true } := rfl
@[simp] theorem faultPrefetch_phase : (s.faultPrefetch).phase = s.phase := rfl
@[simp] theorem faultPrefetch_plat : (s.faultPrefetch).plat = s.plat := rfl
@[simp] theorem faultPrefetch_lines : (s.faultPrefetch).lines = s.lines := rfl
@[simp] theorem faultPrefetch_script : (s.faultPrefetch).script = s.script := rfl
@[simp] theorem faultPrefetch_answers : (s.faultPrefetch).answers = s.answers := rfl
@[simp] theorem faultPrefetch_io : (s.faultPrefetch).io = s.io := rfl
@[simp] theorem faultPrefetch_draws : (s.faultPrefetch).draws = s.draws := rfl

/-! `emptyPipeline` -/

@[simp] theorem emptyPipeline_regs : (s.emptyPipeline).regs = s.regs := rfl
@[simp] theorem emptyPipeline_ps : (s.emptyPipeline).ps = s.ps := rfl
@[simp] theorem emptyPipeline_sys : (s.emptyPipeline).sys = s.sys := rfl
@[simp] theorem emptyPipeline_mmu : (s.emptyPipeline).mmu = s.mmu := rfl
@[simp] theorem emptyPipeline_fpu : (s.emptyPipeline).fpu = s.fpu := rfl
@[simp] theorem emptyPipeline_mem : (s.emptyPipeline).mem = s.mem := rfl
@[simp] theorem emptyPipeline_flow : (s.emptyPipeline).flow = { s.flow with prefetchFault := true, stale := none } := rfl
@[simp] theorem emptyPipeline_phase : (s.emptyPipeline).phase = s.phase := rfl
@[simp] theorem emptyPipeline_plat : (s.emptyPipeline).plat = s.plat := rfl
@[simp] theorem emptyPipeline_lines : (s.emptyPipeline).lines = s.lines := rfl
@[simp] theorem emptyPipeline_script : (s.emptyPipeline).script = s.script := rfl
@[simp] theorem emptyPipeline_answers : (s.emptyPipeline).answers = s.answers := rfl
@[simp] theorem emptyPipeline_io : (s.emptyPipeline).io = s.io := rfl
@[simp] theorem emptyPipeline_draws : (s.emptyPipeline).draws = s.draws := rfl

/-! `gpWrite` -/

@[simp] theorem gpWrite_regs (code : Byte) : (s.gpWrite code).regs = s.regs := rfl
@[simp] theorem gpWrite_ps (code : Byte) : (s.gpWrite code).ps = s.ps := rfl
@[simp] theorem gpWrite_sys (code : Byte) : (s.gpWrite code).sys = s.sys := rfl
@[simp] theorem gpWrite_mmu (code : Byte) : (s.gpWrite code).mmu = s.mmu := rfl
@[simp] theorem gpWrite_fpu (code : Byte) : (s.gpWrite code).fpu = s.fpu := rfl
@[simp] theorem gpWrite_mem (code : Byte) : (s.gpWrite code).mem = s.mem := rfl
@[simp] theorem gpWrite_flow (code : Byte) : (s.gpWrite code).flow = s.flow := rfl
@[simp] theorem gpWrite_phase (code : Byte) : (s.gpWrite code).phase = s.phase := rfl
@[simp] theorem gpWrite_plat (code : Byte) : (s.gpWrite code).plat = s.plat := rfl
@[simp] theorem gpWrite_lines (code : Byte) : (s.gpWrite code).lines = s.lines := rfl
@[simp] theorem gpWrite_script (code : Byte) : (s.gpWrite code).script = s.script := rfl
@[simp] theorem gpWrite_answers (code : Byte) : (s.gpWrite code).answers = s.answers := rfl
@[simp] theorem gpWrite_io (code : Byte) : (s.gpWrite code).io = { s.io with gp := s.io.gp ++ [.write code] } := rfl
@[simp] theorem gpWrite_draws (code : Byte) : (s.gpWrite code).draws = s.draws := rfl

/-! `gpRead` -/

@[simp] theorem gpRead_regs (code : Byte) : (s.gpRead code).regs = s.regs := rfl
@[simp] theorem gpRead_ps (code : Byte) : (s.gpRead code).ps = s.ps := rfl
@[simp] theorem gpRead_sys (code : Byte) : (s.gpRead code).sys = s.sys := rfl
@[simp] theorem gpRead_mmu (code : Byte) : (s.gpRead code).mmu = s.mmu := rfl
@[simp] theorem gpRead_fpu (code : Byte) : (s.gpRead code).fpu = s.fpu := rfl
@[simp] theorem gpRead_mem (code : Byte) : (s.gpRead code).mem = s.mem := rfl
@[simp] theorem gpRead_flow (code : Byte) : (s.gpRead code).flow = s.flow := rfl
@[simp] theorem gpRead_phase (code : Byte) : (s.gpRead code).phase = s.phase := rfl
@[simp] theorem gpRead_plat (code : Byte) : (s.gpRead code).plat = s.plat := rfl
@[simp] theorem gpRead_lines (code : Byte) : (s.gpRead code).lines = s.lines := rfl
@[simp] theorem gpRead_script (code : Byte) : (s.gpRead code).script = s.script := rfl
@[simp] theorem gpRead_answers (code : Byte) : (s.gpRead code).answers = s.answers := rfl
@[simp] theorem gpRead_io (code : Byte) : (s.gpRead code).io = { s.io with gp := s.io.gp ++ [.read code] } := rfl
@[simp] theorem gpRead_draws (code : Byte) : (s.gpRead code).draws = s.draws := rfl

/-! `putChars` -/

@[simp] theorem putChars_regs (cs : List Byte) : (s.putChars cs).regs = s.regs := rfl
@[simp] theorem putChars_ps (cs : List Byte) : (s.putChars cs).ps = s.ps := rfl
@[simp] theorem putChars_sys (cs : List Byte) : (s.putChars cs).sys = s.sys := rfl
@[simp] theorem putChars_mmu (cs : List Byte) : (s.putChars cs).mmu = s.mmu := rfl
@[simp] theorem putChars_fpu (cs : List Byte) : (s.putChars cs).fpu = s.fpu := rfl
@[simp] theorem putChars_mem (cs : List Byte) : (s.putChars cs).mem = s.mem := rfl
@[simp] theorem putChars_flow (cs : List Byte) : (s.putChars cs).flow = s.flow := rfl
@[simp] theorem putChars_phase (cs : List Byte) : (s.putChars cs).phase = s.phase := rfl
@[simp] theorem putChars_plat (cs : List Byte) : (s.putChars cs).plat = s.plat := rfl
@[simp] theorem putChars_lines (cs : List Byte) : (s.putChars cs).lines = s.lines := rfl
@[simp] theorem putChars_script (cs : List Byte) : (s.putChars cs).script = s.script := rfl
@[simp] theorem putChars_answers (cs : List Byte) : (s.putChars cs).answers = s.answers := rfl
@[simp] theorem putChars_io (cs : List Byte) : (s.putChars cs).io = { s.io with out := s.io.out ++ cs } := rfl
@[simp] theorem putChars_draws (cs : List Byte) : (s.putChars cs).draws = s.draws := rfl

/-! `transmit` -/

@[simp] theorem transmit_regs (c : Byte) : (s.transmit c).regs = s.regs := rfl
@[simp] theorem transmit_ps (c : Byte) : (s.transmit c).ps = s.ps := rfl
@[simp] theorem transmit_sys (c : Byte) : (s.transmit c).sys = s.sys := rfl
@[simp] theorem transmit_mmu (c : Byte) : (s.transmit c).mmu = s.mmu := rfl
@[simp] theorem transmit_fpu (c : Byte) : (s.transmit c).fpu = s.fpu := rfl
@[simp] theorem transmit_mem (c : Byte) : (s.transmit c).mem = s.mem := rfl
@[simp] theorem transmit_flow (c : Byte) : (s.transmit c).flow = s.flow := rfl
@[simp] theorem transmit_phase (c : Byte) : (s.transmit c).phase = s.phase := rfl
@[simp] theorem transmit_plat (c : Byte) : (s.transmit c).plat = s.plat := rfl
@[simp] theorem transmit_lines (c : Byte) : (s.transmit c).lines = s.lines := rfl
@[simp] theorem transmit_script (c : Byte) : (s.transmit c).script = s.script := rfl
@[simp] theorem transmit_answers (c : Byte) : (s.transmit c).answers = s.answers := rfl
@[simp] theorem transmit_io (c : Byte) : (s.transmit c).io = { s.io with tx := s.io.tx ++ [c], txReady := false } := rfl
@[simp] theorem transmit_draws (c : Byte) : (s.transmit c).draws = s.draws := rfl

/-! `answered` -/

@[simp] theorem answered_regs : (s.answered).regs = s.regs := rfl
@[simp] theorem answered_ps : (s.answered).ps = s.ps := rfl
@[simp] theorem answered_sys : (s.answered).sys = s.sys := rfl
@[simp] theorem answered_mmu : (s.answered).mmu = s.mmu := rfl
@[simp] theorem answered_fpu : (s.answered).fpu = s.fpu := rfl
@[simp] theorem answered_mem : (s.answered).mem = s.dmaMem (s.answers.headD .plain).dma := rfl
@[simp] theorem answered_flow : (s.answered).flow = s.flow := rfl
@[simp] theorem answered_phase : (s.answered).phase = s.phase := rfl
@[simp] theorem answered_plat : (s.answered).plat = s.plat := rfl
@[simp] theorem answered_lines : (s.answered).lines = s.lines := rfl
@[simp] theorem answered_script : (s.answered).script = s.script := rfl
@[simp] theorem answered_answers : (s.answered).answers = s.answers.tail := rfl
@[simp] theorem answered_io : (s.answered).io = s.io := rfl
@[simp] theorem answered_draws : (s.answered).draws = s.draws := rfl

/-! `holdMasters` -/

@[simp] theorem holdMasters_regs : (s.holdMasters).regs = s.regs := rfl
@[simp] theorem holdMasters_ps : (s.holdMasters).ps = s.ps := rfl
@[simp] theorem holdMasters_sys : (s.holdMasters).sys = s.sys := rfl
@[simp] theorem holdMasters_mmu : (s.holdMasters).mmu = s.mmu := rfl
@[simp] theorem holdMasters_fpu : (s.holdMasters).fpu = s.fpu := rfl
@[simp] theorem holdMasters_mem : (s.holdMasters).mem = s.mem := rfl
@[simp] theorem holdMasters_flow : (s.holdMasters).flow = s.flow := rfl
@[simp] theorem holdMasters_phase : (s.holdMasters).phase = s.phase := rfl
@[simp] theorem holdMasters_plat : (s.holdMasters).plat = s.plat := rfl
@[simp] theorem holdMasters_lines : (s.holdMasters).lines = s.lines := rfl
@[simp] theorem holdMasters_script : (s.holdMasters).script = s.script := rfl
@[simp] theorem holdMasters_io : (s.holdMasters).io = s.io := rfl
@[simp] theorem holdMasters_draws : (s.holdMasters).draws = s.draws := rfl

/-! `takeChar` -/

@[simp] theorem takeChar_regs : (s.takeChar).regs = s.regs := rfl
@[simp] theorem takeChar_ps : (s.takeChar).ps = s.ps := rfl
@[simp] theorem takeChar_sys : (s.takeChar).sys = s.sys := rfl
@[simp] theorem takeChar_mmu : (s.takeChar).mmu = s.mmu := rfl
@[simp] theorem takeChar_fpu : (s.takeChar).fpu = s.fpu := rfl
@[simp] theorem takeChar_mem : (s.takeChar).mem = s.mem := rfl
@[simp] theorem takeChar_flow : (s.takeChar).flow = s.flow := rfl
@[simp] theorem takeChar_phase : (s.takeChar).phase = s.phase := rfl
@[simp] theorem takeChar_plat : (s.takeChar).plat = s.plat := rfl
@[simp] theorem takeChar_lines : (s.takeChar).lines = s.lines := rfl
@[simp] theorem takeChar_script : (s.takeChar).script = s.script := rfl
@[simp] theorem takeChar_answers : (s.takeChar).answers = s.answers := rfl
@[simp] theorem takeChar_io : (s.takeChar).io = { s.io with rx := none } := rfl
@[simp] theorem takeChar_draws : (s.takeChar).draws = s.draws := rfl

/-! `setFps` -/

@[simp] theorem setFps_regs (v : Word) : (s.setFps v).regs = s.regs := rfl
@[simp] theorem setFps_ps (v : Word) : (s.setFps v).ps = s.ps := rfl
@[simp] theorem setFps_sys (v : Word) : (s.setFps v).sys = s.sys := rfl
@[simp] theorem setFps_mmu (v : Word) : (s.setFps v).mmu = s.mmu := rfl
@[simp] theorem setFps_fpu (v : Word) : (s.setFps v).fpu = { s.fpu with fps := v } := rfl
@[simp] theorem setFps_mem (v : Word) : (s.setFps v).mem = s.mem := rfl
@[simp] theorem setFps_flow (v : Word) : (s.setFps v).flow = s.flow := rfl
@[simp] theorem setFps_phase (v : Word) : (s.setFps v).phase = s.phase := rfl
@[simp] theorem setFps_plat (v : Word) : (s.setFps v).plat = s.plat := rfl
@[simp] theorem setFps_lines (v : Word) : (s.setFps v).lines = s.lines := rfl
@[simp] theorem setFps_script (v : Word) : (s.setFps v).script = s.script := rfl
@[simp] theorem setFps_answers (v : Word) : (s.setFps v).answers = s.answers := rfl
@[simp] theorem setFps_io (v : Word) : (s.setFps v).io = s.io := rfl
@[simp] theorem setFps_draws (v : Word) : (s.setFps v).draws = s.draws := rfl

/-! `withFcc` -/

@[simp] theorem withFcc_regs (k : Cc) : (s.withFcc k).regs = s.regs := rfl
@[simp] theorem withFcc_ps (k : Cc) : (s.withFcc k).ps = s.ps := rfl
@[simp] theorem withFcc_sys (k : Cc) : (s.withFcc k).sys = s.sys := rfl
@[simp] theorem withFcc_mmu (k : Cc) : (s.withFcc k).mmu = s.mmu := rfl
@[simp] theorem withFcc_fpu (k : Cc) : (s.withFcc k).fpu = { s.fpu with fps := mergeBits s.fpu.fps 0o17#16 (k.bits.setWidth 16) } := rfl
@[simp] theorem withFcc_mem (k : Cc) : (s.withFcc k).mem = s.mem := rfl
@[simp] theorem withFcc_flow (k : Cc) : (s.withFcc k).flow = s.flow := rfl
@[simp] theorem withFcc_phase (k : Cc) : (s.withFcc k).phase = s.phase := rfl
@[simp] theorem withFcc_plat (k : Cc) : (s.withFcc k).plat = s.plat := rfl
@[simp] theorem withFcc_lines (k : Cc) : (s.withFcc k).lines = s.lines := rfl
@[simp] theorem withFcc_script (k : Cc) : (s.withFcc k).script = s.script := rfl
@[simp] theorem withFcc_answers (k : Cc) : (s.withFcc k).answers = s.answers := rfl
@[simp] theorem withFcc_io (k : Cc) : (s.withFcc k).io = s.io := rfl
@[simp] theorem withFcc_draws (k : Cc) : (s.withFcc k).draws = s.draws := rfl

/-! `beginInstruction` -/

@[simp] theorem beginInstruction_regs : (s.beginInstruction).regs = s.regs := rfl
@[simp] theorem beginInstruction_ps : (s.beginInstruction).ps = s.ps := rfl
@[simp] theorem beginInstruction_sys : (s.beginInstruction).sys = s.sys := rfl
@[simp] theorem beginInstruction_mmu : (s.beginInstruction).mmu = if s.frozen then s.mmu else { s.mmu with mmr1 := 0#16, mmr2 := s.regs.pc } := rfl
@[simp] theorem beginInstruction_fpu : (s.beginInstruction).fpu = s.fpu := rfl
@[simp] theorem beginInstruction_mem : (s.beginInstruction).mem = s.mem := rfl
@[simp] theorem beginInstruction_flow : (s.beginInstruction).flow = { s.flow with instrAddr := s.regs.pc, traceFlag := s.tBit, prefetchFault := false } := rfl
@[simp] theorem beginInstruction_phase : (s.beginInstruction).phase = s.phase := rfl
@[simp] theorem beginInstruction_plat : (s.beginInstruction).plat = s.plat := rfl
@[simp] theorem beginInstruction_lines : (s.beginInstruction).lines = s.lines := rfl
@[simp] theorem beginInstruction_script : (s.beginInstruction).script = s.script := rfl
@[simp] theorem beginInstruction_answers : (s.beginInstruction).answers = s.answers := rfl
@[simp] theorem beginInstruction_io : (s.beginInstruction).io = s.io := rfl
@[simp] theorem beginInstruction_draws : (s.beginInstruction).draws = s.draws := rfl

/-! `advancePc` -/

@[simp] theorem advancePc_regs : (s.advancePc).regs = { s.regs with pc := s.regs.pc + 2#16 } := rfl
@[simp] theorem advancePc_ps : (s.advancePc).ps = s.ps := rfl
@[simp] theorem advancePc_sys : (s.advancePc).sys = s.sys := rfl
@[simp] theorem advancePc_mmu : (s.advancePc).mmu = s.mmu := rfl
@[simp] theorem advancePc_fpu : (s.advancePc).fpu = s.fpu := rfl
@[simp] theorem advancePc_mem : (s.advancePc).mem = s.mem := rfl
@[simp] theorem advancePc_flow : (s.advancePc).flow = s.flow := rfl
@[simp] theorem advancePc_phase : (s.advancePc).phase = s.phase := rfl
@[simp] theorem advancePc_plat : (s.advancePc).plat = s.plat := rfl
@[simp] theorem advancePc_lines : (s.advancePc).lines = s.lines := rfl
@[simp] theorem advancePc_script : (s.advancePc).script = s.script := rfl
@[simp] theorem advancePc_answers : (s.advancePc).answers = s.answers := rfl
@[simp] theorem advancePc_io : (s.advancePc).io = s.io := rfl
@[simp] theorem advancePc_draws : (s.advancePc).draws = s.draws := rfl

/-! `setStackPtr` -/

@[simp] theorem setStackPtr_ps (m : BitVec 2) (v : Word) : (s.setStackPtr m v).ps = s.ps := by
  unfold setStackPtr; split <;> (try split) <;> rfl
@[simp] theorem setStackPtr_sys (m : BitVec 2) (v : Word) : (s.setStackPtr m v).sys = s.sys := by
  unfold setStackPtr; split <;> (try split) <;> rfl
@[simp] theorem setStackPtr_mmu (m : BitVec 2) (v : Word) : (s.setStackPtr m v).mmu = s.mmu := by
  unfold setStackPtr; split <;> (try split) <;> rfl
@[simp] theorem setStackPtr_fpu (m : BitVec 2) (v : Word) : (s.setStackPtr m v).fpu = s.fpu := by
  unfold setStackPtr; split <;> (try split) <;> rfl
@[simp] theorem setStackPtr_mem (m : BitVec 2) (v : Word) : (s.setStackPtr m v).mem = s.mem := by
  unfold setStackPtr; split <;> (try split) <;> rfl
@[simp] theorem setStackPtr_flow (m : BitVec 2) (v : Word) : (s.setStackPtr m v).flow = s.flow := by
  unfold setStackPtr; split <;> (try split) <;> rfl
@[simp] theorem setStackPtr_phase (m : BitVec 2) (v : Word) : (s.setStackPtr m v).phase = s.phase := by
  unfold setStackPtr; split <;> (try split) <;> rfl
@[simp] theorem setStackPtr_plat (m : BitVec 2) (v : Word) : (s.setStackPtr m v).plat = s.plat := by
  unfold setStackPtr; split <;> (try split) <;> rfl
@[simp] theorem setStackPtr_lines (m : BitVec 2) (v : Word) : (s.setStackPtr m v).lines = s.lines := by
  unfold setStackPtr; split <;> (try split) <;> rfl
@[simp] theorem setStackPtr_script (m : BitVec 2) (v : Word) : (s.setStackPtr m v).script = s.script := by
  unfold setStackPtr; split <;> (try split) <;> rfl
@[simp] theorem setStackPtr_answers (m : BitVec 2) (v : Word) : (s.setStackPtr m v).answers = s.answers := by
  unfold setStackPtr; split <;> (try split) <;> rfl
@[simp] theorem setStackPtr_io (m : BitVec 2) (v : Word) : (s.setStackPtr m v).io = s.io := by
  unfold setStackPtr; split <;> (try split) <;> rfl
@[simp] theorem setStackPtr_draws (m : BitVec 2) (v : Word) : (s.setStackPtr m v).draws = s.draws := by
  unfold setStackPtr; split <;> (try split) <;> rfl

/-! `setReg` -/

@[simp] theorem setReg_ps (r : Reg) (v : Word) : (s.setReg r v).ps = s.ps := by
  cases r <;> simp [setReg]
@[simp] theorem setReg_sys (r : Reg) (v : Word) : (s.setReg r v).sys = s.sys := by
  cases r <;> simp [setReg]
@[simp] theorem setReg_mmu (r : Reg) (v : Word) : (s.setReg r v).mmu = s.mmu := by
  cases r <;> simp [setReg]
@[simp] theorem setReg_fpu (r : Reg) (v : Word) : (s.setReg r v).fpu = s.fpu := by
  cases r <;> simp [setReg]
@[simp] theorem setReg_mem (r : Reg) (v : Word) : (s.setReg r v).mem = s.mem := by
  cases r <;> simp [setReg]
@[simp] theorem setReg_phase (r : Reg) (v : Word) : (s.setReg r v).phase = s.phase := by
  cases r <;> simp [setReg]
@[simp] theorem setReg_plat (r : Reg) (v : Word) : (s.setReg r v).plat = s.plat := by
  cases r <;> simp [setReg]
@[simp] theorem setReg_lines (r : Reg) (v : Word) : (s.setReg r v).lines = s.lines := by
  cases r <;> simp [setReg]
@[simp] theorem setReg_script (r : Reg) (v : Word) : (s.setReg r v).script = s.script := by
  cases r <;> simp [setReg]
@[simp] theorem setReg_answers (r : Reg) (v : Word) : (s.setReg r v).answers = s.answers := by
  cases r <;> simp [setReg]
@[simp] theorem setReg_io (r : Reg) (v : Word) : (s.setReg r v).io = s.io := by
  cases r <;> simp [setReg]
@[simp] theorem setReg_draws (r : Reg) (v : Word) : (s.setReg r v).draws = s.draws := by
  cases r <;> simp [setReg]

/-! `stepReg` -/

@[simp] theorem stepReg_ps (r : Reg) (v : Word) : (s.stepReg r v).ps = s.ps := by
  cases r <;> simp [stepReg, setReg]
@[simp] theorem stepReg_sys (r : Reg) (v : Word) : (s.stepReg r v).sys = s.sys := by
  cases r <;> simp [stepReg, setReg]
@[simp] theorem stepReg_mmu (r : Reg) (v : Word) : (s.stepReg r v).mmu = s.mmu := by
  cases r <;> simp [stepReg, setReg]
@[simp] theorem stepReg_fpu (r : Reg) (v : Word) : (s.stepReg r v).fpu = s.fpu := by
  cases r <;> simp [stepReg, setReg]
@[simp] theorem stepReg_mem (r : Reg) (v : Word) : (s.stepReg r v).mem = s.mem := by
  cases r <;> simp [stepReg, setReg]
@[simp] theorem stepReg_flow (r : Reg) (v : Word) : (s.stepReg r v).flow = s.flow := by
  cases r <;> simp [stepReg, setReg]
@[simp] theorem stepReg_phase (r : Reg) (v : Word) : (s.stepReg r v).phase = s.phase := by
  cases r <;> simp [stepReg, setReg]
@[simp] theorem stepReg_plat (r : Reg) (v : Word) : (s.stepReg r v).plat = s.plat := by
  cases r <;> simp [stepReg, setReg]
@[simp] theorem stepReg_lines (r : Reg) (v : Word) : (s.stepReg r v).lines = s.lines := by
  cases r <;> simp [stepReg, setReg]
@[simp] theorem stepReg_script (r : Reg) (v : Word) : (s.stepReg r v).script = s.script := by
  cases r <;> simp [stepReg, setReg]
@[simp] theorem stepReg_answers (r : Reg) (v : Word) : (s.stepReg r v).answers = s.answers := by
  cases r <;> simp [stepReg, setReg]
@[simp] theorem stepReg_io (r : Reg) (v : Word) : (s.stepReg r v).io = s.io := by
  cases r <;> simp [stepReg, setReg]
@[simp] theorem stepReg_draws (r : Reg) (v : Word) : (s.stepReg r v).draws = s.draws := by
  cases r <;> simp [stepReg, setReg]

/-! What `setStackPtr` does to the registers. -/

@[simp] theorem setStackPtr_gpr (m : BitVec 2) (v : Word) : (s.setStackPtr m v).regs.gpr = s.regs.gpr := by
  unfold setStackPtr; split <;> (try split) <;> rfl
@[simp] theorem setStackPtr_pc (m : BitVec 2) (v : Word) : (s.setStackPtr m v).regs.pc = s.regs.pc := by
  unfold setStackPtr; split <;> (try split) <;> rfl
@[simp] theorem stackPtr_setStackPtr (m : BitVec 2) (v : Word) : (s.setStackPtr m v).stackPtr m = v := by
  unfold setStackPtr stackPtr; split <;> (try split) <;> rfl

/-- The three legal modes have stack pointers of their own (10_state R23). -/
theorem stackPtr_setStackPtr_ne (m m' : BitVec 2) (v : Word) (h : m ≠ m') (hm : m ≠ 2#2) (hm' : m' ≠ 2#2) :
    (s.setStackPtr m v).stackPtr m' = s.stackPtr m' := by
  unfold setStackPtr stackPtr
  by_cases h1 : m = kernel <;> by_cases h2 : m = supervisor <;> by_cases h3 : m' = kernel <;>
    by_cases h4 : m' = supervisor <;> simp_all
  exfalso
  revert h hm hm' h1 h2 h3 h4
  revert m m'
  decide

/-! The PS fields read only the PS. -/

@[simp] theorem curMode_withCc (k : Cc) : (s.withCc k).curMode = s.curMode := by
  simp only [curMode, withCc_ps, mergeBits]
  ext i hi
  simp only [BitVec.getElem_extractLsb', BitVec.getLsbD_or, BitVec.getLsbD_and, BitVec.getLsbD_not, BitVec.getLsbD_setWidth]
  have : i = 0 ∨ i = 1 := by omega
  rcases this with rfl | rfl <;> simp

/-! `setReg` and `reg`. -/

@[simp] theorem setReg_flow_of_ne (r : Reg) (v : Word) (h : r ≠ .pc) : (s.setReg r v).flow = s.flow := by
  cases r <;> simp_all [setReg]
@[simp] theorem setReg_pc_of_ne (r : Reg) (v : Word) (h : r ≠ .pc) : (s.setReg r v).regs.pc = s.regs.pc := by
  cases r <;> simp_all [setReg]
@[simp] theorem curMode_setReg (r : Reg) (v : Word) : (s.setReg r v).curMode = s.curMode := by simp [curMode]
@[simp] theorem gprSlot_setReg (r : Reg) (v : Word) (n : Fin 6) : (s.setReg r v).gprSlot n = s.gprSlot n := by simp [gprSlot]

theorem gprSlot_inj (n m : Fin 6) : (s.gprSlot n).val = (s.gprSlot m).val ↔ n = m := by
  unfold gprSlot; split <;> simp [Fin.ext_iff]

theorem gprN_setGprN (n m : Fin 6) (v : Word) : (s.setGprN n v).gprN m = if n = m then v else s.gprN m := by
  show (s.regs.gpr.set (s.gprSlot n).val v (s.gprSlot n).isLt)[(s.gprSlot m).val]'(s.gprSlot m).isLt =
    if n = m then v else s.regs.gpr[(s.gprSlot m).val]'(s.gprSlot m).isLt
  rw [Vector.getElem_set]
  simp only [gprSlot_inj]

/-- A register written reads back, and no other register changes (10_state R20 to R24). -/
theorem reg_setReg (r r' : Reg) (v : Word) : (s.setReg r v).reg r' = if r = r' then v else s.reg r' := by
  have h (n m : Fin 6) : (s.setGprN n v).gprN m = if n = m then v else s.gprN m := s.gprN_setGprN n m v
  have h1 (n : Fin 6) : (s.setStackPtr s.curMode v).gprN n = s.gprN n := by
    simp [gprN, gprSlot]
  have h2 (n : Fin 6) : (s.setGprN n v).stackPtr s.curMode = s.stackPtr s.curMode := rfl
  have h3 (n : Fin 6) : (s.setGprN n v).curMode = s.curMode := rfl
  have h4 : (s.setStackPtr s.curMode v).curMode = s.curMode := by simp [curMode]
  have h5 (n : Fin 6) : (s.jump v).gprN n = s.gprN n := rfl
  have h6 : (s.jump v).stackPtr (s.jump v).curMode = s.stackPtr s.curMode := rfl
  cases r <;> cases r' <;> simp [setReg, reg, h, h1, h2, h3, h4, h5, h6]

end State

end Sys2Proof.Machine
end

