-- ==== Sys2Proof/Laws/Plain.lean ====
section
/-! SUPPORT. References to plain storage: what translating, reading and writing come to there, once, so that no proof unfolds
the memory path (20_memory R101, R110, R130, R134). -/

namespace Sys2Proof.Machine

variable {s : State} {va : Word}

theorem map16_low (h : va < 0o160000#16) : map16 va = va.setWidth 22 := by simp [map16, h]

theorem translate_off (sp : Space) (m : BitVec 2) (va : Word) (acc : Access) (h : s.mmu.mmr0.getLsbD 0 = false) :
    translate sp m va acc s = .ok (map16 va) s := by
  unfold translate
  rw [h]
  rfl

/-- An even address below the I/O page is its own word address. -/
theorem wordAddr_even (he : va.getLsbD 0 = false) : wordAddr (va.setWidth 22) = va.setWidth 22 := by
  have : ∀ i, i < 22 → (wordAddr (va.setWidth 22)).getLsbD i = (va.setWidth 22).getLsbD i := by
    intro i hi
    simp only [wordAddr, BitVec.getLsbD_and, BitVec.getLsbD_not, BitVec.getLsbD_one, BitVec.getLsbD_setWidth]
    rcases Nat.eq_zero_or_pos i with rfl | hp
    · simpa using he
    · simp [hi]; intro _; omega
  exact BitVec.eq_of_getLsbD_eq this

theorem intRegAt_low {a : PAddr} (h : a < 0o17772200#22) : intRegAt a = none := by
  have h1 : a.toNat < 4191360 := h
  have h2 : (a.extractLsb' 6 16).toNat < 65490 := by
    simp only [BitVec.extractLsb'_toNat, Nat.shiftRight_eq_div_pow]; omega
  have ne : ∀ c : PAddr, 4191360 ≤ c.toNat → a ≠ c := fun c hc he => by subst he; omega
  have ne' : ∀ c : BitVec 16, 65490 ≤ c.toNat → a.extractLsb' 6 16 ≠ c := fun c hc he => by rw [he] at h2; omega
  unfold intRegAt
  rw [if_neg (ne _ (by decide)), if_neg (ne _ (by decide)), if_neg (ne _ (by decide)), if_neg (ne _ (by decide)),
    if_neg (ne _ (by decide)), if_neg (ne _ (by decide)), if_neg (ne _ (by decide)), if_neg (ne _ (by decide)),
    if_neg (ne _ (by decide)), if_neg (ne' _ (by decide)), if_neg (ne' _ (by decide)), if_neg (ne' _ (by decide))]

theorem serialRegAt_low {a : PAddr} (h : a < 0o17772200#22) : serialRegAt a = none := by
  have h1 : a.toNat < 4191360 := h
  have ne : ∀ c : PAddr, 4191360 ≤ c.toNat → a ≠ c := fun c hc he => by subst he; omega
  unfold serialRegAt
  rw [if_neg (ne _ (by decide)), if_neg (ne _ (by decide)), if_neg (ne _ (by decide)), if_neg (ne _ (by decide))]

namespace State.PlainAt

theorem addr_lt (h : s.PlainAt va) : va.toNat < 57344 := h.low

/-- Plain storage answers as storage. -/
theorem device (h : s.PlainAt va) : s.deviceAt (va.setWidth 22) = .storage := by
  have hl : va.setWidth 22 < 0o17772200#22 := by
    have := h.addr_lt
    show (va.setWidth 22).toNat < 4191360
    simp only [BitVec.toNat_setWidth]; omega
  simp only [State.deviceAt, wordAddr_even h.even, intRegAt_low hl, serialRegAt_low hl, h.stored, ite_self, if_true]

theorem translate (h : s.PlainAt va) (sp : Space) (m : BitVec 2) (acc : Access) :
    translate sp m va acc s = .ok (va.setWidth 22) s := by
  rw [translate_off sp m va acc h.off, map16_low h.low]

/-- The cycle there ends well, and uses up no answer. -/
theorem busAnswer (h : s.PlainAt va) : s.busAnswer (va.setWidth 22) = .plain := by
  simp [State.busAnswer, h.unanswered, h.device, wordAddr_even h.even, h.abortFree, h.errorFree, BusAnswer.plain]

theorem answered (h : s.PlainAt va) : s.answered = s := by
  simp only [State.answered, h.unanswered, List.tail_nil, List.headD_nil]
  exact congrArg (fun l => { s with answers := l }) h.unanswered.symm

/-- Reading the word there gives it and changes nothing. -/
theorem read (h : s.PlainAt va) (sp : Space) (m : BitVec 2) (acc : Access) :
    memRead sp m .word va acc s = .ok (s.word va) s := by
  have ha : va.toNat % 4194304 = va.toNat := Nat.mod_eq_of_lt (by have := va.isLt; omega)
  unfold memRead checkAligned
  rw [if_neg (by rw [h.even]; simp), run_pure_bind, run_bind_ok (h.translate sp m acc)]
  unfold physRead
  rw [run_bind]
  simp [physReadWord, h.device, h.busAnswer, h.answered, BusAnswer.plain, wordAddr_even h.even, State.word, ha]

/-- Writing the word there replaces its two bytes and changes nothing else. -/
theorem write (h : s.PlainAt va) (sp : Space) (m : BitVec 2) (v : Word) :
    memWrite sp m .word va v s = .ok false (s.putWord va v) := by
  have ha : va.toNat % 4194304 = va.toNat := Nat.mod_eq_of_lt (by have := va.isLt; omega)
  unfold memWrite checkAligned
  rw [if_neg (by rw [h.even]; simp), run_pure_bind, run_bind_ok (h.translate sp m .write)]
  simp [physWrite, h.device, h.busAnswer, h.answered, BusAnswer.plain, wordAddr_even h.even, State.putWord, Memory.store, ha]

/-- Whether an address is plain depends only on the MMU, the platform and the answers to come. -/
theorem congr {t : State} (h : s.PlainAt va) (hm : t.mmu.mmr0 = s.mmu.mmr0) (hp : t.plat = s.plat)
    (ha : t.answers = s.answers) : t.PlainAt va :=
  ⟨h.even, by rw [hm]; exact h.off, h.low, by rw [hp]; exact h.stored, by rw [hp]; exact h.abortFree,
   by rw [hp]; exact h.errorFree, by rw [ha]; exact h.unanswered⟩

end State.PlainAt

@[simp] theorem State.putWord_regs (s : State) (a v : Word) : (s.putWord a v).regs = s.regs := rfl
@[simp] theorem State.putWord_ps (s : State) (a v : Word) : (s.putWord a v).ps = s.ps := rfl
@[simp] theorem State.putWord_sys (s : State) (a v : Word) : (s.putWord a v).sys = s.sys := rfl
@[simp] theorem State.putWord_mmu (s : State) (a v : Word) : (s.putWord a v).mmu = s.mmu := rfl
@[simp] theorem State.putWord_fpu (s : State) (a v : Word) : (s.putWord a v).fpu = s.fpu := rfl
@[simp] theorem State.putWord_mem (s : State) (a v : Word) : (s.putWord a v).mem = s.mem.writeWord a.toNat v := rfl
@[simp] theorem State.putWord_flow (s : State) (a v : Word) : (s.putWord a v).flow = s.flow := rfl
@[simp] theorem State.putWord_phase (s : State) (a v : Word) : (s.putWord a v).phase = s.phase := rfl
@[simp] theorem State.putWord_plat (s : State) (a v : Word) : (s.putWord a v).plat = s.plat := rfl
@[simp] theorem State.putWord_answers (s : State) (a v : Word) : (s.putWord a v).answers = s.answers := rfl
@[simp] theorem State.putWord_lines (s : State) (a v : Word) : (s.putWord a v).lines = s.lines := rfl

/-- Reading a word depends only on storage. -/
theorem State.word_congr {t : State} (h : t.mem = s.mem) (a : Word) : t.word a = s.word a := by simp [State.word, h]

end Sys2Proof.Machine
end

