-- ==== Sys2Proof/Laws/Operands.lean ====
section
/-! SUPPORT. What each shared operand operation can do: stepping a register, fetching an instruction-stream word, pushing and
popping in plain storage, and the frames of reading and writing (40_addressing_modes R252 to R267; 43 R400). -/

namespace Sys2Proof.Machine

variable {s t : State}

/-! ## `recordMmr1` changes only MMR1 -/

section
variable (r : BitVec 3) (n : BitVec 5) (s : State)

theorem recordMmr1_eq : recordMmr1 r n s = { s with mmu := { s.mmu with mmr1 := (recordMmr1 r n s).mmu.mmr1 } } := by
  unfold recordMmr1; split <;> (try split) <;> rfl

@[simp] theorem recordMmr1_regs : (recordMmr1 r n s).regs = s.regs := by rw [recordMmr1_eq]
@[simp] theorem recordMmr1_ps : (recordMmr1 r n s).ps = s.ps := by rw [recordMmr1_eq]
@[simp] theorem recordMmr1_sys : (recordMmr1 r n s).sys = s.sys := by rw [recordMmr1_eq]
@[simp] theorem recordMmr1_fpu : (recordMmr1 r n s).fpu = s.fpu := by rw [recordMmr1_eq]
@[simp] theorem recordMmr1_mem : (recordMmr1 r n s).mem = s.mem := by rw [recordMmr1_eq]
@[simp] theorem recordMmr1_flow : (recordMmr1 r n s).flow = s.flow := by rw [recordMmr1_eq]
@[simp] theorem recordMmr1_phase : (recordMmr1 r n s).phase = s.phase := by rw [recordMmr1_eq]
@[simp] theorem recordMmr1_plat : (recordMmr1 r n s).plat = s.plat := by rw [recordMmr1_eq]
@[simp] theorem recordMmr1_lines : (recordMmr1 r n s).lines = s.lines := by rw [recordMmr1_eq]
@[simp] theorem recordMmr1_script : (recordMmr1 r n s).script = s.script := by rw [recordMmr1_eq]
@[simp] theorem recordMmr1_answers : (recordMmr1 r n s).answers = s.answers := by rw [recordMmr1_eq]
@[simp] theorem recordMmr1_io : (recordMmr1 r n s).io = s.io := by rw [recordMmr1_eq]
@[simp] theorem recordMmr1_draws : (recordMmr1 r n s).draws = s.draws := by rw [recordMmr1_eq]
@[simp] theorem recordMmr1_mmr0 : (recordMmr1 r n s).mmu.mmr0 = s.mmu.mmr0 := by rw [recordMmr1_eq]
@[simp] theorem recordMmr1_mmr2 : (recordMmr1 r n s).mmu.mmr2 = s.mmu.mmr2 := by rw [recordMmr1_eq]
@[simp] theorem recordMmr1_mmr3 : (recordMmr1 r n s).mmu.mmr3 = s.mmu.mmr3 := by rw [recordMmr1_eq]
@[simp] theorem recordMmr1_par : (recordMmr1 r n s).mmu.par = s.mmu.par := by rw [recordMmr1_eq]
@[simp] theorem recordMmr1_pdr : (recordMmr1 r n s).mmu.pdr = s.mmu.pdr := by rw [recordMmr1_eq]
@[simp] theorem recordMmr1_curMode : (recordMmr1 r n s).curMode = s.curMode := by simp [State.curMode]
@[simp] theorem recordMmr1_reg (r' : Reg) : (recordMmr1 r n s).reg r' = s.reg r' := by
  cases r' <;> simp [State.reg, State.gprN, State.gprSlot, State.stackPtr]
@[simp] theorem recordMmr1_stackPtr (m : BitVec 2) : (recordMmr1 r n s).stackPtr m = s.stackPtr m := by
  simp [State.stackPtr]

end

/-! ## The pieces of an effective address -/

/-- Stepping a register but the PC is writing it. -/
theorem stepReg_of_ne {r : Reg} (v : Word) (h : r ≠ .pc) : s.stepReg r v = s.setReg r v := by
  cases r <;> first | rfl | exact absurd rfl h

@[simp] theorem run_moveReg (r : Reg) (n : Int) (s : State) :
    moveReg r n s = .ok () (
      let t := recordMmr1 r.bits (BitVec.ofInt 5 n) (s.stepReg r (s.reg r + BitVec.ofInt 16 n))
      if r = .pc ∧ n < 0 then t.faultPrefetch else t) := rfl

/-- A register but the PC is moved and MMR1 records it, nothing else (40 R252). -/
theorem run_moveReg_of_ne {r : Reg} (n : Int) (s : State) (h : r ≠ .pc) :
    moveReg r n s = .ok () (recordMmr1 r.bits (BitVec.ofInt 5 n) (s.setReg r (s.reg r + BitVec.ofInt 16 n))) := by
  rw [run_moveReg, ← stepReg_of_ne _ h]
  simp [h]

theorem readCur_plain {va : Word} (h : s.PlainAt va) (sp : Space) : readCur sp va s = .ok (s.word va) s := by
  unfold readCur
  rw [run_look_bind]
  exact h.read _ _ _

/-- A word of the instruction stream in plain storage: it is read and the PC passes it (10_state R28). -/
theorem fetchStream_plain (h : s.PlainAt s.regs.pc) :
    fetchStream s = .ok (s.word s.regs.pc) (s.setPc (s.regs.pc + 2#16)) := by
  simp [fetchStream, readCur_plain h, State.advancePc]

/-- The kernel stack check requests the yellow trap or nothing (40 R261). -/
theorem run_stackCheck (va : Word) (s : State) :
    stackCheck va s = .ok () (if s.curMode = kernel ∧ va < 0o400#16 then s.requestYellow else s) := rfl

/-! ## Stacks -/

/-- A push in plain storage: the SP goes down first, MMR1 records it, the word is stored (43 R400). -/
theorem push_plain (v : Word) (h : s.PlainAt (s.stackPtr s.curMode - 2#16)) :
    push v s = .ok false (State.putWord (recordMmr1 6#3 (-2#5) (s.setStackPtr s.curMode (s.stackPtr s.curMode - 2#16)))
      (s.stackPtr s.curMode - 2#16) v) := by
  have hm : (s.setStackPtr s.curMode (s.stackPtr s.curMode - 2#16)).curMode = s.curMode := by simp [State.curMode]
  unfold push
  simp only [run_update_bind, run_look_bind, recordMmr1_curMode, recordMmr1_stackPtr, hm, State.stackPtr_setStackPtr]
  exact State.PlainAt.write (h.congr (by simp) (by simp) (by simp)) _ _ _

/-- A pop in plain storage: the word is read, then the SP goes up and MMR1 records it (43 R400). -/
theorem pop_plain (h : s.PlainAt (s.stackPtr s.curMode)) :
    pop s = .ok (s.word (s.stackPtr s.curMode))
      (recordMmr1 6#3 2#5 (s.setStackPtr s.curMode (s.stackPtr s.curMode + 2#16))) := by
  unfold pop
  simp only [run_look_bind]
  rw [run_bind_ok (h.read .d s.curMode .read)]
  rfl

end Sys2Proof.Machine
end

