-- ==== Sys2Proof/Laws/Frame.lean ====
section
/-! SUPPORT. What a reference can do to the state. One that succeeds: a translation only sets the W bit, a read touches only the
console line, the draw counter, the pending parity interrupt and the answers to come. One that aborts: the memory management unit
records it in MMR0, the bus cycle uses up its answer. In both, other bus masters store what the environment says (20_memory R110,
R130, R133, R138, R139, R151, R156). -/

namespace Sys2Proof.Machine

variable {s t : State}

/-! ## Other bus masters -/

/-- What other masters store depends only on the platform and on what is stored. -/
theorem dmaStore_congr (hp : t.plat = s.plat) : t.dmaStore = s.dmaStore := by
  funext m w
  unfold State.dmaStore State.deviceAt
  rw [hp]

theorem dmaMem_append (s : State) (a b : List (PAddr × Word)) : s.dmaMem (a ++ b) = b.foldl s.dmaStore (s.dmaMem a) :=
  List.foldl_append ..

@[simp] theorem dmaMem_nil (s : State) : s.dmaMem [] = s.mem := rfl

@[simp] theorem memAfter_zero (s : State) : s.memAfter 0 = s.mem := by simp [State.memAfter]

theorem answered_memAfter (s : State) : s.answered.mem = s.memAfter 1 := by
  cases h : s.answers with
  | nil => simp [State.memAfter, h, BusAnswer.plain]
  | cons x xs => simp [State.memAfter, h]

theorem tail_eq_drop_one {α : Type} (l : List α) : l.tail = l.drop 1 := by cases l <;> rfl

/-- The cycles of two pieces one after the other. -/
theorem memAfter_add {n : Nat} (m : Nat) (hp : t.plat = s.plat) (hm : t.mem = s.memAfter n)
    (ha : t.answers = s.answers.drop n) : t.memAfter m = s.memAfter (n + m) := by
  unfold State.memAfter
  rw [List.take_add, List.flatMap_append, dmaMem_append, ha]
  unfold State.dmaMem
  rw [dmaStore_congr hp, hm]
  rfl

/-- Without stores of other masters, storage stays. -/
theorem memAfter_of_undisturbed (h : s.Undisturbed) (n : Nat) : s.memAfter n = s.mem := by
  have : (s.answers.take n).flatMap (·.dma) = [] :=
    List.flatMap_eq_nil_iff.2 fun x hx => h x (List.mem_of_mem_take hx)
  simp [State.memAfter, this]

/-! ## Reads -/

/-- Nothing changed but the console line, the draw counter, the pending parity interrupt, the answers to come, and storage by
what other masters stored in the cycles between. -/
def OnlyRead (s t : State) : Prop :=
  ∃ n, t = { s with mem := s.memAfter n, flow := { s.flow with pendParity := t.flow.pendParity },
                    answers := s.answers.drop n, io := t.io, draws := t.draws }

theorem OnlyRead.refl (s : State) : OnlyRead s s := ⟨0, by simp⟩

theorem OnlyRead.trans {a b c : State} (h : OnlyRead a b) (h' : OnlyRead b c) : OnlyRead a c := by
  obtain ⟨n, h⟩ := h
  obtain ⟨m, h'⟩ := h'
  have e : b.memAfter m = a.memAfter (n + m) := memAfter_add m (by rw [h]) (by rw [h]) (by rw [h])
  refine ⟨n + m, ?_⟩
  rw [e] at h'
  rw [h] at h'
  simpa only [List.drop_drop] using h'

/-- Reading uses up one answer at most. -/
theorem OnlyRead.answered (s : State) : OnlyRead s s.answered :=
  ⟨1, by rw [← answered_memAfter, ← tail_eq_drop_one]; rfl⟩

theorem readInt_ok {r : IntReg} {w : Word} (h : readInt r s = .ok w t) : OnlyRead s t := by
  unfold readInt at h
  split at h <;> (try split at h) <;> (cases h; exact ⟨0, by simp⟩)

theorem readSerial_ok {r : SerialReg} {w : Word} (h : readSerial r s = .ok w t) : OnlyRead s t := by
  unfold readSerial at h
  cases r
  · cases h; exact ⟨0, by simp⟩
  · revert h
    cases s.io.rx <;> (intro h; cases h; exact ⟨0, by simp⟩)
  · cases h; exact ⟨0, by simp⟩
  · cases h; exact ⟨0, by simp⟩

/-- A bus read that succeeds. -/
theorem physReadWord_ok {a : PAddr} {w : Word} (h : physReadWord a s = .ok w t) : OnlyRead s t := by
  unfold physReadWord at h
  split at h
  · exact readInt_ok h
  · dsimp only at h
    have hp : OnlyRead s (if (s.busAnswer a).parity then s.answered.requestParity else s.answered) := by
      split
      · exact (OnlyRead.answered s).trans ⟨0, by simp [State.requestParity]⟩
      · exact OnlyRead.answered s
    split at h
    · cases h
    · split at h
      · exact hp.trans (readSerial_ok h)
      · cases h; exact hp
      · cases h; exact hp

/-- A write that reaches storage and is not aborted stores its bytes over what other masters stored in its cycle and uses up
the environment's answer, nothing else (20_memory R101, R110, R151, R152). -/
theorem physWrite_storage {sz : Size} {a : PAddr} {v : Word} (hd : s.deviceAt a = .storage)
    (ha : (s.busAnswer a).abort = false) :
    physWrite sz a v s = .ok false { s with mem := s.answered.mem.store sz a v, answers := s.answers.tail } := by
  simp [physWrite, hd, ha, State.answered]

/-- A write to storage that succeeds was not aborted. -/
theorem physWrite_storage_ok {sz : Size} {a : PAddr} {v : Word} {b : Bool} (hd : s.deviceAt a = .storage)
    (h : physWrite sz a v s = .ok b t) :
    b = false ∧ t = { s with mem := s.answered.mem.store sz a v, answers := s.answers.tail } := by
  cases ha : (s.busAnswer a).abort with
  | false => rw [physWrite_storage hd ha] at h; cases h; exact ⟨rfl, rfl⟩
  | true => simp [physWrite, hd, ha] at h

/-- Whether a cycle is aborted depends only on the platform and the answers to come. -/
theorem busAnswer_congr (a : PAddr) (hp : t.plat = s.plat) (ha : t.answers = s.answers) : t.busAnswer a = s.busAnswer a := by
  have hd : t.deviceAt a = s.deviceAt a := by unfold State.deviceAt; rw [hp]
  simp only [State.busAnswer, hd, hp, ha]

/-- Without a script a step's inputs are the lines as they were, no answers, and a ready transmitter (61 R712; log entry 7). -/
theorem sampleInputs_nil (h : s.script = []) : s.sampleInputs =
    { s with answers := [], io := { s.io with txReady := true }
             flow := { s.flow with pwrfAcked := s.flow.pwrfAcked && s.lines.pwrf } } := by
  simp [State.sampleInputs, State.takeSample, h]

/-- What a locked cycle that ends well leaves: what its piece left with the other masters held off, then what they stored. -/
theorem lockedCycle_ok {α : Type} {m : M α} {x : α} (h : lockedCycle m s = .ok x t) :
    ∃ u, m s.holdMasters = .ok x u ∧ t = { u with mem := u.dmaMem (s.answers.headD .plain).dma } := by
  unfold lockedCycle at h
  cases hr : m s.holdMasters with
  | ok v u => rw [hr] at h; cases h; exact ⟨u, rfl, rfl⟩
  | error e u => rw [hr] at h; cases h

/-- With the other masters held off the next cycle leaves storage to the instruction. -/
theorem holdMasters_answered (s : State) : s.holdMasters.answered = { s with answers := s.answers.tail } := by
  cases h : s.answers <;> simp [State.holdMasters, State.answered, h, State.dmaMem, BusAnswer.plain]

theorem holdMasters_of_undisturbed (h : s.Undisturbed) : s.holdMasters = s := by
  obtain ⟨_, _, _, _, _, _, _, _, _, _, _, answers, _, _⟩ := s
  cases answers with
  | nil => rfl
  | cons x xs =>
    have hx : x.dma = [] := h x List.mem_cons_self
    cases x
    cases hx
    rfl

theorem physRead_ok {sz : Size} {a : PAddr} {w : Word} (h : physRead sz a s = .ok w t) : OnlyRead s t := by
  obtain ⟨v, s1, h1, h2⟩ := bind_eq_ok h
  cases sz <;> (cases h2; exact physReadWord_ok h1)

/-- A translation that succeeds changes nothing, or for a write at most the W bit of the page's PDR (20_memory R138). -/
theorem translate_ok {sp : Space} {m : BitVec 2} {va : Word} {acc : Access} {pa : PAddr}
    (h : translate sp m va acc s = .ok pa t) :
    t = s ∨ acc = .write ∧ ∃ i : Fin 48, t = { s with mmu := { s.mmu with
      pdr := s.mmu.pdr.set i.val (s.mmu.pdr.get i ||| pdrW) i.isLt } } := by
  unfold translate at h
  split at h
  · cases h; exact .inl rfl
  · split at h
    · cases h
    · dsimp only at h
      split at h
      · cases h
      · split at h
        · cases h; exact .inr ⟨‹_›, _, rfl⟩
        · cases h; exact .inl rfl

theorem translate_read_ok {sp : Space} {m : BitVec 2} {va : Word} {acc : Access} {pa : PAddr} (hacc : acc ≠ .write)
    (h : translate sp m va acc s = .ok pa t) : t = s := (translate_ok h).resolve_right fun h' => hacc h'.1

theorem checkAligned_ok {sz : Size} {va : Word} {u : Unit} (h : checkAligned sz va s = .ok u t) : t = s := by
  unfold checkAligned at h
  split at h
  · cases h
  · cases h; rfl

/-- A read of virtual memory that succeeds. -/
theorem memRead_ok {sp : Space} {m : BitVec 2} {sz : Size} {va x : Word} {acc : Access} (hacc : acc ≠ .write)
    (h : memRead sp m sz va acc s = .ok x t) : OnlyRead s t := by
  obtain ⟨u, s1, h1, h2⟩ := bind_eq_ok h
  obtain ⟨pa, s2, h3, h4⟩ := bind_eq_ok h2
  cases checkAligned_ok h1
  cases translate_read_ok hacc h3
  exact physRead_ok h4

theorem readCur_ok {sp : Space} {va x : Word} (h : readCur sp va s = .ok x t) : OnlyRead s t :=
  memRead_ok (by decide) h

/-- A word of the instruction stream that was read: only the PC moved besides (10_state R28). -/
theorem fetchStream_ok {w : Word} (h : fetchStream s = .ok w t) : ∃ u, OnlyRead s u ∧ t = u.setPc (u.regs.pc + 2#16) := by
  unfold fetchStream at h
  split at h
  · cases h; exact ⟨_, readCur_ok ‹_›, rfl⟩
  · cases h
  · cases h

/-! ## Reads that abort -/

/-- An abort changed nothing but, by the memory management unit, MMR0 and the draw counter, and by the bus cycle it ended the
answers to come and storage, by what other masters stored before that cycle (20_memory R139, R151, R156). -/
def OnlyAborted (e : Exit) (s t : State) : Prop :=
  (∃ n, n ≤ 1 ∧ t = { s with mmu := { s.mmu with mmr0 := t.mmu.mmr0 }, mem := s.memAfter n, answers := s.answers.drop n,
                             draws := t.draws }) ∧
  (e ≠ .raise .mmuAbort → t.mmu.mmr0 = s.mmu.mmr0 ∧ t.draws = s.draws)

theorem OnlyAborted.refl (e : Exit) (s : State) : OnlyAborted e s s := ⟨⟨0, by decide, by simp⟩, fun _ => ⟨rfl, rfl⟩⟩

theorem OnlyAborted.answered (e : Exit) (s : State) : OnlyAborted e s s.answered :=
  ⟨⟨1, le_rfl, by rw [← answered_memAfter, ← tail_eq_drop_one]; rfl⟩, fun _ => ⟨rfl, rfl⟩⟩

/-- Recording an abort writes MMR0 or nothing (20_memory R139). -/
theorem recordAbort_eq (s : State) (nonres length readonly : Bool) (m : BitVec 2) (space : Bool) (page : BitVec 3) :
    s.recordAbort nonres length readonly m space page =
      { s with mmu := { s.mmu with mmr0 := (s.recordAbort nonres length readonly m space page).mmu.mmr0 } } := by
  unfold State.recordAbort
  split <;> rfl

theorem translate_error {sp : Space} {m : BitVec 2} {va : Word} {acc : Access} {e : Exit}
    (h : translate sp m va acc s = .error e t) : OnlyAborted e s t := by
  unfold translate at h
  split at h
  · cases h
  · split at h
    · cases h
      exact ⟨⟨0, by decide, by rw [recordAbort_eq]; simp⟩, fun h => absurd rfl h⟩
    · dsimp only at h
      split at h
      · cases h
        exact ⟨⟨0, by decide, by rw [recordAbort_eq]; simp⟩, fun h => absurd rfl h⟩
      · cases h

/-- A bus read is aborted before anything of it is seen (20_memory R110). -/
theorem physReadWord_error {a : PAddr} {e : Exit} (h : physReadWord a s = .error e t) : OnlyAborted e s t := by
  unfold physReadWord at h
  split at h
  · exfalso
    unfold readInt at h
    split at h <;> (try split at h) <;> cases h
  · dsimp only at h
    split at h
    · cases h; exact .answered _ _
    · exfalso
      split at h
      · rename_i r _
        unfold readSerial at h
        cases r
        · cases h
        · dsimp only at h; split at h <;> cases h
        · cases h
        · cases h
      · cases h
      · cases h

/-- A read of virtual memory that aborts. -/
theorem memRead_error {sp : Space} {m : BitVec 2} {sz : Size} {va : Word} {acc : Access} {e : Exit} (hacc : acc ≠ .write)
    (h : memRead sp m sz va acc s = .error e t) : OnlyAborted e s t := by
  rcases bind_eq_error h with h | ⟨_, u, h1, h⟩
  · unfold checkAligned at h
    split at h
    · cases h; exact .refl _ _
    · cases h
  · cases checkAligned_ok h1
    rcases bind_eq_error h with h | ⟨pa, u, h2, h⟩
    · exact translate_error h
    · cases translate_read_ok hacc h2
      rcases bind_eq_error h with h | ⟨w, u, _, h⟩
      · exact physReadWord_error h
      · cases sz <;> cases h

end Sys2Proof.Machine
end

