-- ==== Sys2Proof/Laws/Inv.lean ====
section
/-! SUPPORT. The machine's invariant is kept by every shared operation. -/

namespace Sys2Proof.Machine

/-! ## Masks -/

/-- Bits that neither the old value nor the mask has stay zero. -/
theorem mergeBits_unused {old mask v u : Word} (h : old &&& u = 0#16) (hm : mask &&& u = 0#16) :
    mergeBits old mask v &&& u = 0#16 := by
  ext i hi
  have h1 : (old &&& u)[i] = false := by rw [h]; simp
  have h2 : (mask &&& u)[i] = false := by rw [hm]; simp
  simp only [BitVec.getElem_and] at h1 h2
  simp only [mergeBits, BitVec.getElem_and, BitVec.getElem_or, BitVec.getElem_not, BitVec.getElem_zero]
  revert h1 h2
  cases old[i] <;> cases mask[i] <;> cases u[i] <;> cases v[i] <;> simp

theorem and_unused {x m u : Word} (h : x &&& u = 0#16) : (x &&& m) &&& u = 0#16 := by
  rw [BitVec.and_assoc, BitVec.and_comm m u, ← BitVec.and_assoc, h, BitVec.zero_and]

theorem and_mask_unused {x m u : Word} (h : m &&& u = 0#16) : (x &&& m) &&& u = 0#16 := by
  rw [BitVec.and_assoc, h, BitVec.and_zero]

theorem or_unused {x y u : Word} (h : x &&& u = 0#16) (h' : y &&& u = 0#16) : (x ||| y) &&& u = 0#16 := by
  ext i hi
  have h1 : (x &&& u)[i] = false := by rw [h]; simp
  have h2 : (y &&& u)[i] = false := by rw [h']; simp
  simp only [BitVec.getElem_and] at h1 h2
  simp only [BitVec.getElem_and, BitVec.getElem_or, BitVec.getElem_zero]
  revert h1 h2
  cases x[i] <;> cases y[i] <;> cases u[i] <;> simp

theorem vectorPs_unused (w old : Word) : vectorPs w old &&& 0o003000#16 = 0#16 :=
  mergeBits_unused (mergeBits_unused rfl rfl) rfl

theorem restoredPs_unused {m : BitVec 2} {old w : Word} (h : old &&& 0o003000#16 = 0#16) :
    restoredPs m old w &&& 0o003000#16 = 0#16 := by
  unfold restoredPs
  split
  · exact and_mask_unused rfl
  · exact mergeBits_unused (or_unused h (and_mask_unused rfl)) rfl

theorem mask_and_unused {m p u : Word} (h : p &&& u = 0#16) : (m &&& p) &&& u = 0#16 := and_mask_unused h

/-! ## Field by field -/

namespace State.Inv

variable {s t : State}

/-- The invariant speaks only of storage, the PS, the system registers, the MMU and the FPS. -/
theorem congr (h : s.Inv) (hm : t.mem = s.mem) (hp : t.ps = s.ps) (hs : t.sys = s.sys) (hu : t.mmu = s.mmu)
    (hf : t.fpu.fps = s.fpu.fps) : t.Inv :=
  ⟨by rw [hm]; exact h.mem_wf, by rw [hm]; exact h.mem_bound, by rw [hp]; exact h.ps_unused, by rw [hs]; exact h.cpuerr_unused,
   by rw [hs]; exact h.ccr_unused, by rw [hu]; exact h.pdr_unused, by rw [hu]; exact h.mmr0_unused,
   by rw [hu]; exact h.mmr3_unused, by rw [hf]; exact h.fps_unused⟩

theorem writePs (h : s.Inv) {mask v : Word} (hm : mask &&& 0o003000#16 = 0#16) : (s.writePs mask v).Inv :=
  ⟨h.mem_wf, h.mem_bound, mergeBits_unused h.ps_unused hm, h.cpuerr_unused, h.ccr_unused, h.pdr_unused, h.mmr0_unused,
   h.mmr3_unused, h.fps_unused⟩

theorem writePs_value (h : s.Inv) {mask v : Word} (hv : v &&& 0o003000#16 = 0#16) : (s.writePs mask v).Inv := by
  refine ⟨h.mem_wf, h.mem_bound, ?_, h.cpuerr_unused, h.ccr_unused, h.pdr_unused, h.mmr0_unused, h.mmr3_unused, h.fps_unused⟩
  exact or_unused (and_unused h.ps_unused) (and_unused hv)

theorem withCc (h : s.Inv) (k : Cc) : (s.withCc k).Inv :=
  ⟨h.mem_wf, h.mem_bound, mergeBits_unused h.ps_unused rfl, h.cpuerr_unused, h.ccr_unused, h.pdr_unused, h.mmr0_unused,
   h.mmr3_unused, h.fps_unused⟩

theorem setReg (h : s.Inv) (r : Reg) (v : Word) : (s.setReg r v).Inv := h.congr (by simp) (by simp) (by simp) (by simp) (by simp)

theorem stepReg (h : s.Inv) (r : Reg) (v : Word) : (s.stepReg r v).Inv :=
  h.congr (by simp) (by simp) (by simp) (by simp) (by simp)

theorem setStackPtr (h : s.Inv) (m : BitVec 2) (v : Word) : (s.setStackPtr m v).Inv :=
  h.congr (by simp) (by simp) (by simp) (by simp) (by simp)

theorem jump (h : s.Inv) (v : Word) : (s.jump v).Inv := h.congr rfl rfl rfl rfl rfl

theorem setPc (h : s.Inv) (v : Word) : (s.setPc v).Inv := h.congr rfl rfl rfl rfl rfl

theorem gpWrite (h : s.Inv) (c : Byte) : (s.gpWrite c).Inv := h.congr rfl rfl rfl rfl rfl

theorem gpRead (h : s.Inv) (c : Byte) : (s.gpRead c).Inv := h.congr rfl rfl rfl rfl rfl

theorem putChars (h : s.Inv) (cs : List Byte) : (s.putChars cs).Inv := h.congr rfl rfl rfl rfl rfl

theorem setCpuerr (h : s.Inv) {bits : Word} (hb : bits &&& 0o177403#16 = 0#16) : (s.setCpuerr bits).Inv :=
  ⟨h.mem_wf, h.mem_bound, h.ps_unused, or_unused h.cpuerr_unused hb, h.ccr_unused, h.pdr_unused, h.mmr0_unused,
   h.mmr3_unused, h.fps_unused⟩

theorem withFps (h : s.Inv) {v : Word} (hv : v &&& 0o030020#16 = 0#16) : (s.setFps v).Inv :=
  ⟨h.mem_wf, h.mem_bound, h.ps_unused, h.cpuerr_unused, h.ccr_unused, h.pdr_unused, h.mmr0_unused, h.mmr3_unused, hv⟩

theorem withFcc (h : s.Inv) (k : Cc) : (s.withFcc k).Inv := h.withFps (mergeBits_unused h.fps_unused rfl)

theorem floatException (h : s.Inv) (code : BitVec 4) : (s.floatException code).Inv := by
  have hf : (s.fpu.fps ||| 0o100000#16) &&& 0o030020#16 = 0#16 := or_unused h.fps_unused rfl
  unfold State.floatException
  dsimp only
  split <;>
    exact ⟨h.mem_wf, h.mem_bound, h.ps_unused, h.cpuerr_unused, h.ccr_unused, h.pdr_unused, h.mmr0_unused, h.mmr3_unused, hf⟩

theorem setAcc (h : s.Inv) (n : Fin 6) (fmt : FFormat) (v : BitVec 64) : (s.setAcc n fmt v).Inv := by
  cases fmt <;> exact h.congr rfl rfl rfl rfl rfl

theorem recordMmr1 (h : s.Inv) (r : BitVec 3) (n : BitVec 5) : (Machine.recordMmr1 r n s).Inv := by
  unfold Machine.recordMmr1
  split
  · exact h
  · split <;> exact ⟨h.mem_wf, h.mem_bound, h.ps_unused, h.cpuerr_unused, h.ccr_unused, h.pdr_unused, h.mmr0_unused,
      h.mmr3_unused, h.fps_unused⟩

theorem get_set_pdr {v : Vector Word 48} {u : Word} (h : ∀ i : Fin 48, v.get i &&& u = 0#16) (i : Fin 48) {w : Word}
    (hw : w &&& u = 0#16) (j : Fin 48) : (v.set i.val w i.isLt).get j &&& u = 0#16 := by
  have e : (v.set i.val w i.isLt).get j = if i.val = j.val then w else v.get j := by
    show (v.set i.val w i.isLt)[j.val] = if i.val = j.val then w else v[j.val]
    exact Vector.getElem_set ..
  rw [e]
  split
  · exact hw
  · exact h j

theorem writeMmr0 (h : s.Inv) (mask v : Word) : (s.writeMmr0 mask v).Inv := by
  have h1 := mergeBits_unused (v := v) h.mmr0_unused (mask_and_unused (m := mask) (p := 0o160001#16) rfl)
  unfold State.writeMmr0
  dsimp only
  split
  · exact ⟨h.mem_wf, h.mem_bound, h.ps_unused, h.cpuerr_unused, h.ccr_unused, h.pdr_unused, h1, h.mmr3_unused, h.fps_unused⟩
  · exact ⟨h.mem_wf, h.mem_bound, h.ps_unused, h.cpuerr_unused, h.ccr_unused, h.pdr_unused, mergeBits_unused h1 rfl,
      h.mmr3_unused, h.fps_unused⟩

theorem writeInt (h : s.Inv) (r : IntReg) (mask v : Word) : (s.writeInt r mask v).Inv := by
  cases r with
  | ps => exact h.writePs (mask_and_unused rfl)
  | pirq | hmr | mmr1 | mmr2 =>
    exact ⟨h.mem_wf, h.mem_bound, h.ps_unused, h.cpuerr_unused, h.ccr_unused, h.pdr_unused, h.mmr0_unused, h.mmr3_unused,
      h.fps_unused⟩
  | cpuerr =>
    exact ⟨h.mem_wf, h.mem_bound, h.ps_unused, BitVec.zero_and, h.ccr_unused, h.pdr_unused, h.mmr0_unused, h.mmr3_unused,
      h.fps_unused⟩
  | ccr =>
    exact ⟨h.mem_wf, h.mem_bound, h.ps_unused, h.cpuerr_unused, mergeBits_unused h.ccr_unused (mask_and_unused rfl),
      h.pdr_unused, h.mmr0_unused, h.mmr3_unused, h.fps_unused⟩
  | mmr0 => exact h.writeMmr0 mask v
  | mmr3 =>
    exact ⟨h.mem_wf, h.mem_bound, h.ps_unused, h.cpuerr_unused, h.ccr_unused, h.pdr_unused, h.mmr0_unused,
      mergeBits_unused h.mmr3_unused (mask_and_unused rfl), h.fps_unused⟩
  | par i =>
    exact ⟨h.mem_wf, h.mem_bound, h.ps_unused, h.cpuerr_unused, h.ccr_unused,
      get_set_pdr h.pdr_unused i (and_unused (h.pdr_unused i)), h.mmr0_unused, h.mmr3_unused, h.fps_unused⟩
  | pdr i =>
    exact ⟨h.mem_wf, h.mem_bound, h.ps_unused, h.cpuerr_unused, h.ccr_unused,
      get_set_pdr h.pdr_unused i (and_unused (mergeBits_unused (h.pdr_unused i) (mask_and_unused rfl))),
      h.mmr0_unused, h.mmr3_unused, h.fps_unused⟩

theorem writeSerial (h : s.Inv) (r : SerialReg) (mask v : Word) : (s.writeSerial r mask v).Inv := by
  cases r <;> simp only [State.writeSerial] <;> (try split) <;> first | exact h | exact h.congr rfl rfl rfl rfl rfl

/-- Storage alone may change, to what is canonical and in range. -/
theorem withMem (h : s.Inv) {m : Memory} (hw : m.wf = true) (hb : ∀ c ∈ m, c.1 < 2 ^ 22) : State.Inv { s with mem := m } :=
  ⟨hw, hb, h.ps_unused, h.cpuerr_unused, h.ccr_unused, h.pdr_unused, h.mmr0_unused, h.mmr3_unused, h.fps_unused⟩

theorem withStore (h : s.Inv) (sz : Size) (a : PAddr) (v : Word) : State.Inv { s with mem := s.mem.store sz a v } :=
  h.withMem (Memory.wf_store _ _ _ h.mem_wf) (Memory.lt_of_mem_store h.mem_bound)

/-- What other bus masters store leaves storage canonical and in range. -/
theorem dmaMem (h : s.Inv) (ws : List (PAddr × Word)) : (s.dmaMem ws).wf = true ∧ ∀ c ∈ s.dmaMem ws, c.1 < 2 ^ 22 := by
  have key : ∀ (ws : List (PAddr × Word)) (m : Memory), m.wf = true ∧ (∀ c ∈ m, c.1 < 2 ^ 22) →
      (ws.foldl s.dmaStore m).wf = true ∧ ∀ c ∈ ws.foldl s.dmaStore m, c.1 < 2 ^ 22 := by
    intro ws
    induction ws with
    | nil => exact fun _ h => h
    | cons w ws ih =>
      refine fun m hm => ih _ ?_
      unfold State.dmaStore
      split
      · exact ⟨Memory.wf_writeWord _ _ hm.1, Memory.lt_of_mem_writeWord hm.2 (Memory.wordAddr_toNat_lt _)⟩
      · exact hm
  exact key ws s.mem ⟨h.mem_wf, h.mem_bound⟩

theorem answered (h : s.Inv) : s.answered.Inv :=
  (h.withMem (h.dmaMem _).1 (h.dmaMem _).2).congr rfl rfl rfl rfl rfl

theorem mmr0_gap : ∀ i < 6, (0o017600#16).getLsbD (7 + i) = true := by decide

theorem recordAbort (h : s.Inv) (a b c : Bool) (m : BitVec 2) (d : Bool) (p : BitVec 3) : (s.recordAbort a b c m d p).Inv := by
  unfold State.recordAbort
  split
  · exact h
  · refine ⟨h.mem_wf, h.mem_bound, h.ps_unused, h.cpuerr_unused, h.ccr_unused, h.pdr_unused, ?_, h.mmr3_unused, h.fps_unused⟩
    have hx := h.mmr0_unused
    have hz : s.mmu.mmr0.extractLsb' 7 6 = 0#6 := by
      ext i hi
      have h1 : (s.mmu.mmr0 &&& 0o017600#16).getLsbD (7 + i) = false := by rw [hx]; simp
      have hc : (0o017600#16).getLsbD (7 + i) = true := mmr0_gap i hi
      rw [BitVec.getLsbD_and, hc, Bool.and_true] at h1
      simpa only [BitVec.getElem_extractLsb', BitVec.getElem_zero] using h1
    show (BitVec.ofBool a ++ BitVec.ofBool b ++ BitVec.ofBool c ++ s.mmu.mmr0.extractLsb' 7 6 ++ m ++ BitVec.ofBool d ++ p ++
        s.mmu.mmr0.extractLsb' 0 1) &&& 0o017600#16 = 0#16
    rw [hz]
    generalize s.mmu.mmr0.extractLsb' 0 1 = e
    revert a b c m d p e
    decide

end State.Inv

/-! ## Bodies -/

/-- What it is for a piece of an instruction to keep the invariant. -/
abbrev KeepsInv {α : Type} (m : M α) : Prop := Within (fun s t => s.Inv → t.Inv) m

theorem inv_chained : Chained (fun s t : State => s.Inv → t.Inv) := ⟨fun _ h => h, fun f g h => g (f h)⟩

namespace KeepsInv

variable {α β : Type}

theorem pure (a : α) : KeepsInv (Pure.pure a : M α) := Within.pure inv_chained a
theorem raise (e : Event) : KeepsInv (Machine.raise e : M α) := Within.raise inv_chained e
theorem ended : KeepsInv (endInstruction : M α) := Within.ended inv_chained
theorem look (f : State → α) : KeepsInv (Machine.look f) := Within.look inv_chained f
theorem update {f : State → State} (h : ∀ s, s.Inv → (f s).Inv) : KeepsInv (Machine.update f) := Within.update h
theorem draw (f : Nat → α) : KeepsInv (Machine.draw f) := Within.draw fun _ h => h.congr rfl rfl rfl rfl rfl
theorem bind {m : M α} {f : α → M β} (hm : KeepsInv m) (hf : ∀ a, KeepsInv (f a)) : KeepsInv (m >>= f) := Within.bind inv_chained hm hf

theorem readInt (r : IntReg) : KeepsInv (Machine.readInt r) := by
  intro s h
  cases r <;> first
    | exact h
    | exact h.congr rfl rfl rfl rfl rfl
    | (unfold Machine.readInt; dsimp only; split <;> first | exact h | exact h.congr rfl rfl rfl rfl rfl)

theorem readSerial (r : SerialReg) : KeepsInv (Machine.readSerial r) := by
  intro s h
  unfold Machine.readSerial
  cases r <;> dsimp only <;> first | exact h.congr rfl rfl rfl rfl rfl | (split <;> exact h.congr rfl rfl rfl rfl rfl)

theorem physReadWord (a : PAddr) : KeepsInv (Machine.physReadWord a) := by
  intro s h
  unfold Machine.physReadWord
  split
  · exact readInt _ s h
  · dsimp only
    have ha : s.answered.Inv := h.answered
    have hp : (if (s.busAnswer a).parity then s.answered.requestParity else s.answered).Inv := by
      split
      · exact ha.congr rfl rfl rfl rfl rfl
      · exact ha
    split
    · exact ha
    · split
      · exact readSerial _ _ hp
      · exact hp
      · exact hp

theorem physRead (sz : Size) (a : PAddr) : KeepsInv (Machine.physRead sz a) :=
  bind (physReadWord a) fun _ => by cases sz <;> exact pure _

theorem physWrite (sz : Size) (a : PAddr) (v : Word) : KeepsInv (Machine.physWrite sz a v) := by
  intro s h
  unfold Machine.physWrite
  split
  · exact h.writeInt _ _ _
  · dsimp only
    have ha : s.answered.Inv := h.answered
    split
    · exact ha
    · split
      · exact ha.writeSerial _ _ _
      · exact ha.withStore _ _ _
      · exact ha

theorem lockedCycle {m : M α} (hm : KeepsInv m) : KeepsInv (Machine.lockedCycle m) := by
  intro s h
  have h0 : s.holdMasters.Inv := h.congr rfl rfl rfl rfl rfl
  have h1 := hm _ h0
  unfold Machine.lockedCycle
  cases hr : m s.holdMasters with
  | ok v t => rw [hr] at h1; exact State.Inv.withMem h1 (State.Inv.dmaMem h1 _).1 (State.Inv.dmaMem h1 _).2
  | error e t => rw [hr] at h1; exact State.Inv.withMem h1 (State.Inv.dmaMem h1 _).1 (State.Inv.dmaMem h1 _).2

theorem translate (sp : Space) (m : BitVec 2) (va : Word) (acc : Access) : KeepsInv (Machine.translate sp m va acc) := by
  intro s h
  unfold Machine.translate
  split
  · exact h
  · split
    · have h1 : State.Inv { s with draws := s.draws + 2 } := h.congr rfl rfl rfl rfl rfl
      exact h1.recordAbort _ _ _ _ _ _
    · dsimp only
      split
      · exact h.recordAbort _ _ _ _ _ _
      · simp only [finalState]
        split
        · exact ⟨h.mem_wf, h.mem_bound, h.ps_unused, h.cpuerr_unused, h.ccr_unused,
            State.Inv.get_set_pdr h.pdr_unused _ (or_unused (h.pdr_unused _) rfl), h.mmr0_unused, h.mmr3_unused, h.fps_unused⟩
        · exact h

theorem checkAligned (sz : Size) (va : Word) : KeepsInv (Machine.checkAligned sz va) := Within.ite (raise _) (pure _)

theorem memRead (sp : Space) (m : BitVec 2) (sz : Size) (va : Word) (acc : Access) : KeepsInv (Machine.memRead sp m sz va acc) :=
  bind (checkAligned sz va) fun _ => bind (translate sp m va acc) fun pa => physRead sz pa

theorem memWrite (sp : Space) (m : BitVec 2) (sz : Size) (va v : Word) : KeepsInv (Machine.memWrite sp m sz va v) :=
  bind (checkAligned sz va) fun _ => bind (translate sp m va .write) fun pa => physWrite sz pa v

theorem stackCheck (va : Word) : KeepsInv (Machine.stackCheck va) := update fun s h => by
  split
  · exact h.congr rfl rfl rfl rfl rfl
  · exact h

theorem push (v : Word) : KeepsInv (Machine.push v) :=
  bind (update fun _ h => (h.setStackPtr _ _).recordMmr1 _ _) fun _ => bind (look _) fun _ => bind (look _) fun _ =>
    memWrite _ _ _ _ _

theorem pop : KeepsInv Machine.pop :=
  bind (look _) fun _ => bind (look _) fun _ => bind (memRead _ _ _ _ _) fun _ =>
    bind (update fun _ h => (h.setStackPtr _ _).recordMmr1 _ _) fun _ => pure _

theorem loadVector (v oldPs : Word) : KeepsInv (Machine.loadVector v oldPs) :=
  bind (update fun _ h => h.writePs rfl) fun _ => bind (memRead _ _ _ _ _) fun _ => bind (update fun _ h => h.jump _) fun _ =>
    bind (memRead _ _ _ _ _) fun _ => update fun _ h => h.writePs_value (vectorPs_unused _ _)

theorem trapPush (kind : TrapKind) (m : BitVec 2) (v : Word) : KeepsInv (Machine.trapPush kind m v) :=
  bind (update fun _ h => h.setStackPtr _ _) fun _ => bind (look _) fun _ =>
    bind (update fun s h => by
      split
      · exact h.congr rfl rfl rfl rfl rfl
      · exact h) fun _ => bind (memWrite _ _ _ _ _) fun _ => pure _

theorem pushOld (kind : TrapKind) (m : BitVec 2) (ps pc : Word) : KeepsInv (Machine.pushOld kind m ps pc) :=
  bind (trapPush _ _ _) fun _ => trapPush _ _ _

theorem redStackSequence (ps pc : Word) : KeepsInv (Machine.redStackSequence ps pc) :=
  bind (update fun _ h => (h.setStackPtr _ _).writePs rfl) fun _ => bind (memRead _ _ _ _ _) fun _ =>
    bind (memRead _ _ _ _ _) fun _ => bind (update fun _ h => (h.jump _).writePs_value (vectorPs_unused _ _)) fun _ =>
    bind (update fun _ h => h.setStackPtr _ _) fun _ => bind (memWrite _ _ _ _ _) fun _ =>
    bind (update fun _ h => h.setStackPtr _ _) fun _ => bind (memWrite _ _ _ _ _) fun _ => pure _

end KeepsInv

namespace State.Inv

variable {s : State}

theorem enterConsole (h : s.Inv) : s.enterConsole.Inv := h.congr rfl rfl rfl rfl rfl

theorem cpuerrBits_unused (e : Event) : e.cpuerrBits &&& 0o177403#16 = 0#16 := by
  cases e <;> first | rfl | exact BitVec.zero_and

theorem nestedAbort (h : s.Inv) (e : Exit) : (s.nestedAbort e).Inv := by
  cases e with
  | raise e => exact (h.setCpuerr (cpuerrBits_unused e)).congr rfl rfl rfl rfl rfl
  | ended => exact h

theorem redStack (h : s.Inv) (e : Exit) (ps pc : Word) : (s.redStack e ps pc).Inv := by
  have key : ∀ s1 : State, s1.Inv → (match redStackSequence ps pc s1 with
      | .ok _ s' => s'
      | .error e' s' => s'.nestedAbort e').Inv := by
    intro s1 h1
    have h2 := KeepsInv.redStackSequence ps pc s1 h1
    cases hr : redStackSequence ps pc s1 with
    | ok a s2 => rw [hr] at h2; exact h2
    | error e s2 => rw [hr] at h2; exact nestedAbort h2 e
  cases e with
  | raise e => exact key _ (h.setCpuerr (or_unused (cpuerrBits_unused e) rfl))
  | ended => exact key _ h

theorem trapSequence (h : s.Inv) (v : Word) (k : TrapKind) : (s.trapSequence v k).Inv := by
  unfold State.trapSequence
  split
  · exact h.enterConsole
  · dsimp only
    have h0 : State.Inv { s with phase := .service, flow := { s.flow with stale := none } } := h.congr rfl rfl rfl rfl rfl
    have h1 := KeepsInv.loadVector v s.ps _ h0
    cases hl : Machine.loadVector v s.ps { s with phase := .service, flow := { s.flow with stale := none } } with
    | error e s1 => rw [hl] at h1; exact nestedAbort h1 e
    | ok a s1 =>
      rw [hl] at h1
      have h2 := KeepsInv.pushOld k s1.curMode s.ps s.regs.pc s1 h1
      dsimp only
      cases hp : Machine.pushOld k s1.curMode s.ps s.regs.pc s1 with
      | ok a s2 => rw [hp] at h2; exact h2
      | error e s2 =>
        rw [hp] at h2
        dsimp only
        split
        · exact redStack h2 _ _ _
        · exact nestedAbort h2 _

/-- Taking an event keeps the invariant. -/
theorem takeEvent (h : s.Inv) (e : Event) : (s.takeEvent e).Inv := by
  have h1 : State.Inv { s.setCpuerr e.cpuerrBits with
      flow := { (s.setCpuerr e.cpuerrBits).flow with traceFlag := false } } :=
    (h.setCpuerr (cpuerrBits_unused e)).congr rfl rfl rfl rfl rfl
  exact h1.trapSequence _ _

/-- An instruction keeps the invariant if its body does. -/
theorem runBody (h : s.Inv) {body : M Unit} (hb : KeepsInv body) : (runBody body s).Inv := by
  have h1 := hb s h
  unfold Machine.runBody
  cases hr : body s with
  | ok a t => rw [hr] at h1; exact h1
  | error e t =>
    rw [hr] at h1
    cases e with
    | raise e => exact takeEvent h1 e
    | ended => exact h1

end State.Inv

theorem KeepsInv.returnFromTrap : KeepsInv Machine.returnFromTrap :=
  bind (look _) fun _ => bind pop fun _ => bind pop fun _ => update fun _ h =>
    (h.writePs_value (restoredPs_unused h.ps_unused)).jump _

/-- What an instruction's meaning leaves, if its body keeps the invariant. -/
theorem inv_of_complete {body : M Unit} {s t : State} (hb : KeepsInv body) (h : s.Inv) (hc : complete body s = .next t) :
    t.Inv := by
  have e : Machine.runBody body s = t := by simpa [complete] using hc
  exact e ▸ h.runBody hb

end Sys2Proof.Machine
end

