-- ==== Sys2Proof/Laws/InvOperands.lean ====
section
/-! SUPPORT. The machine's invariant is kept by every operand form and by the shared instruction bodies. -/

namespace Sys2Proof.Machine.KeepsInv

variable {α β : Type}

theorem ite {c : Prop} [Decidable c] {m m' : M α} (h : KeepsInv m) (h' : KeepsInv m') : KeepsInv (if c then m else m') :=
  Within.ite h h'

theorem moveReg (r : Reg) (n : Int) : KeepsInv (Machine.moveReg r n) := update fun _ h => by
  dsimp only
  split
  · exact ((h.stepReg _ _).recordMmr1 _ _).congr rfl rfl rfl rfl rfl
  · exact (h.stepReg _ _).recordMmr1 _ _

theorem readCur (sp : Space) (va : Word) : KeepsInv (Machine.readCur sp va) := bind (look _) fun _ => memRead _ _ _ _ _

theorem fetchStream : KeepsInv Machine.fetchStream := by
  intro s h
  have h1 := readCur .i s.regs.pc s h
  unfold Machine.fetchStream
  cases hr : Machine.readCur .i s.regs.pc s with
  | ok w t => rw [hr] at h1; exact h1.setPc _
  | error e t =>
    rw [hr] at h1
    cases e with
    | ended => exact h1
    | raise e =>
      show State.Inv (if e.isBusError then t.advancePc else t)
      split
      · exact h1.setPc _
      · exact h1

theorem checkStackMode (r : Reg) (va : Word) : KeepsInv (Machine.checkStackMode r va) := ite (stackCheck _) (pure _)

theorem effectiveAddress (f : Operand) (n : Nat) : KeepsInv (Machine.effectiveAddress f n) := by
  unfold Machine.effectiveAddress
  dsimp only
  split
  · exact bind (look _) fun _ => pure _
  · exact bind (look _) fun _ => pure _
  · exact bind (look _) fun _ => bind (moveReg _ _) fun _ => pure _
  · exact bind (look _) fun _ => bind (moveReg _ _) fun _ => bind (readCur _ _) fun _ => pure _
  · exact bind (moveReg _ _) fun _ => bind (look _) fun _ => bind (checkStackMode _ _) fun _ => pure _
  · exact bind (moveReg _ _) fun _ => bind (look _) fun _ => bind (checkStackMode _ _) fun _ => bind (readCur _ _) fun _ =>
      pure _
  · exact bind fetchStream fun _ => bind (look _) fun _ => pure _
  · exact bind fetchStream fun _ => bind (look _) fun _ => bind (readCur _ _) fun _ => pure _

theorem place (sz : Size) (f : Operand) : KeepsInv (Machine.place sz f) :=
  ite (pure _) (bind (effectiveAddress _ _) fun _ => pure _)

theorem readPlace (sz : Size) (p : Place) (acc : Access) : KeepsInv (Machine.readPlace sz p acc) := by
  cases p with
  | reg r => exact look _
  | mem sp a => exact bind (look _) fun _ => memRead _ _ _ _ _

theorem writePlace (sz : Size) (p : Place) (v : Word) : KeepsInv (Machine.writePlace sz p v) := by
  cases p with
  | reg r => exact fun s h => h.setReg r _
  | mem sp a => exact bind (look _) fun _ => memWrite _ _ _ _ _

theorem writeByteExtended (p : Place) (v : Byte) : KeepsInv (Machine.writeByteExtended p v) := by
  cases p with
  | reg r => exact fun s h => h.setReg r _
  | mem sp a => exact writePlace .byte (.mem sp a) _

theorem readOp (sz : Size) (f : Operand) : KeepsInv (Machine.readOp sz f) := bind (place _ _) fun _ => readPlace _ _ _

theorem writeOp (sz : Size) (f : Operand) (v : Word) : KeepsInv (Machine.writeOp sz f v) :=
  bind (place _ _) fun _ => writePlace _ _ _

theorem setCc (b : Bool) (k : Cc) : KeepsInv (Machine.setCc b k) := update fun s h => by
  split
  · exact h
  · exact h.withCc k

theorem earlySource (sz : Size) (f : Operand) : KeepsInv (Machine.earlySource sz f) :=
  ite (pure _) (bind (readOp _ _) fun _ => pure _)

theorem lateSource (sz : Size) (f : Operand) (e : Option Word) : KeepsInv (Machine.lateSource sz f e) := by
  cases e
  · exact look _
  · exact pure _

theorem modifyOperand (sz : Size) (g : Unary) (f : Operand) : KeepsInv (Machine.modifyOperand sz g f) :=
  bind (place _ _) fun _ => bind (readPlace _ _ _) fun _ => bind (look _) fun _ => bind (writePlace _ _ _) fun _ => setCc _ _

theorem testOperand (sz : Size) (g : Unary) (f : Operand) : KeepsInv (Machine.testOperand sz g f) :=
  bind (readOp _ _) fun _ => bind (look _) fun _ => setCc _ _

theorem storeOperand (sz : Size) (g : Cc → Word × Cc) (f : Operand) : KeepsInv (Machine.storeOperand sz g f) :=
  bind (place _ _) fun _ => bind (look _) fun _ => bind (writePlace _ _ _) fun _ => setCc _ _

theorem modifyDouble (sz : Size) (g : Binary) (a b : Operand) : KeepsInv (Machine.modifyDouble sz g a b) :=
  bind (earlySource _ _) fun _ => bind (place _ _) fun _ => bind (lateSource _ _ _) fun _ => bind (readPlace _ _ _) fun _ =>
    bind (look _) fun _ => bind (writePlace _ _ _) fun _ => setCc _ _

theorem compareDouble (sz : Size) (g : Binary) (a b : Operand) : KeepsInv (Machine.compareDouble sz g a b) :=
  bind (earlySource _ _) fun _ => bind (place _ _) fun _ => bind (lateSource _ _ _) fun _ => bind (readPlace _ _ _) fun _ =>
    bind (look _) fun _ => setCc _ _

theorem moveDouble (sz : Size) (a b : Operand) : KeepsInv (Machine.moveDouble sz a b) :=
  bind (earlySource _ _) fun _ => bind (place _ _) fun _ => bind (lateSource _ _ _) fun _ => bind (look _) fun _ =>
    bind (writePlace _ _ _) fun _ => setCc _ _

theorem readWords (sp : Space) : ∀ (n : Nat) (a : Word), KeepsInv (Machine.readWords sp n a)
  | 0, _ => pure _
  | n + 1, _ => bind (readPlace _ _ _) fun _ => bind (readWords sp n _) fun _ => pure _

theorem writeWords (sp : Space) : ∀ (ws : List Word) (a : Word), KeepsInv (Machine.writeWords sp ws a)
  | [], _ => pure _
  | _ :: ws, _ => bind (writePlace _ _ _) fun _ => bind (writeWords sp ws _) fun _ => pure _

theorem readLong (f : Operand) (n : Nat) : KeepsInv (Machine.readLong f n) :=
  bind (effectiveAddress _ _) fun _ => bind (readWords _ _ _) fun _ => pure _

theorem writeLongAt (f : Operand) (n : Nat) (sp : Space) (a : Word) (v : BitVec 64) :
    KeepsInv (Machine.writeLongAt f n sp a v) :=
  writeWords _ _ _

theorem writeLong (f : Operand) (n : Nat) (v : BitVec 64) : KeepsInv (Machine.writeLong f n v) :=
  bind (effectiveAddress _ _) fun _ => writeLongAt _ _ _ _ _

end Sys2Proof.Machine.KeepsInv
end

