-- ==== Sys2Proof/Laws/InvCycle.lean ====
section
/-! SUPPORT. The machine's invariant is kept by everything a step does around an instruction's meaning. -/

namespace Sys2Proof.Machine

namespace State.Inv

variable {s : State}

/-! ## Fetching -/

theorem beginInstruction (h : s.Inv) : s.beginInstruction.Inv := by
  refine ⟨h.mem_wf, h.mem_bound, h.ps_unused, h.cpuerr_unused, h.ccr_unused, ?_, ?_, ?_, h.fps_unused⟩ <;>
    rw [State.beginInstruction_mmu] <;> split <;> first | exact h.pdr_unused | exact h.mmr0_unused | exact h.mmr3_unused

theorem endInstruction (h : s.Inv) (b : State) : (State.endInstruction b s).Inv := h.congr rfl rfl rfl rfl rfl

theorem dma (h : s.Inv) (ws : List (PAddr × Word)) : (s.dma ws).Inv :=
  (h.withMem (h.dmaMem ws).1 (h.dmaMem ws).2).congr rfl rfl rfl rfl rfl

theorem receive (h : s.Inv) (cs : List Byte) : (s.receive cs).Inv := by
  unfold State.receive
  split
  · exact h
  · split
    · exact h
    · exact h.congr rfl rfl rfl rfl rfl

theorem takeSample (h : s.Inv) : s.takeSample.Inv := by
  unfold State.takeSample
  split
  · exact h.congr rfl rfl rfl rfl rfl
  · exact ((h.dma _).receive _).congr rfl rfl rfl rfl rfl

theorem sampleInputs (h : s.Inv) : s.sampleInputs.Inv := h.takeSample.congr rfl rfl rfl rfl rfl

/-! ## Service -/

theorem acknowledge (h : s.Inv) (r : Request) : (s.acknowledge r).Inv := by
  cases r <;> first | exact h | exact h.gpWrite _ | exact h.setCpuerr rfl

theorem withdraw (h : s.Inv) (r : Request) : (s.withdraw r).Inv := by
  cases r <;> exact h.congr rfl rfl rfl rfl rfl

theorem takeRequest (h : s.Inv) (r : Request) : (s.takeRequest r).Inv := by
  unfold State.takeRequest
  dsimp only
  split
  · exact (h.acknowledge r).enterConsole
  · exact ((h.acknowledge r).withdraw r).trapSequence _ _

theorem service (h : s.Inv) {t : State} (hs : s.service = some t) : t.Inv := by
  unfold State.service at hs
  split at hs
  · cases hs
  · cases hs; exact h.takeRequest _
  · split at hs
    · cases hs; exact h.enterConsole
    · cases hs

theorem wake (h : s.Inv) {first : State} (hf : first.Inv) : (s.wake first).Inv := by
  unfold State.wake
  split
  · exact h.takeRequest _
  · exact hf

theorem waitStep (h : s.Inv) : s.waitStep.Inv := by
  unfold State.waitStep
  split
  · exact h.takeRequest _
  · exact h.wake (h.takeRequest _)
  · split
    · exact h.wake h.enterConsole
    · exact h

/-! ## Power-up -/

theorem get_ofFn {f : Fin 48 → Word} (u : Word) (hf : ∀ i, f i &&& u = 0#16) (i : Fin 48) :
    (Vector.ofFn f).get i &&& u = 0#16 := by
  have e : (Vector.ofFn f).get i = f i := by
    show (Vector.ofFn f)[i.val] = f i
    exact Vector.getElem_ofFn ..
  rw [e]; exact hf i

theorem initialise (h : s.Inv) : s.initialise.Inv := by
  have hm : s.initialise.mem.wf = true ∧ ∀ c ∈ s.initialise.mem, c.1 < 2 ^ 22 := by
    show Memory.wf (if s.phase.interruptsInstruction then _ else s.mem) = true ∧
      ∀ c ∈ (if s.phase.interruptsInstruction then _ else s.mem), c.1 < 2 ^ 22
    split
    · exact Memory.ofCells_canonical _
    · exact ⟨h.mem_wf, h.mem_bound⟩
  exact ⟨hm.1, hm.2, BitVec.zero_and, BitVec.zero_and, BitVec.zero_and, get_ofFn _ fun _ => and_mask_unused rfl,
    and_mask_unused rfl, BitVec.zero_and, BitVec.zero_and⟩

theorem powerUp (h : s.Inv) : s.powerUp.Inv := h.congr rfl rfl rfl rfl rfl

theorem setPriority (h : s.Inv) (p : BitVec 3) : (s.setPriority p).Inv := h.writePs rfl

theorem emptyPipeline (h : s.Inv) : s.emptyPipeline.Inv := h.congr rfl rfl rfl rfl rfl

theorem startUp (h : s.Inv) : s.startUp.Inv := by
  have h0 : State.Inv { s.emptyPipeline with phase := .service } := h.emptyPipeline.congr rfl rfl rfl rfl rfl
  have hv : KeepsInv loadPowerUpVector :=
    KeepsInv.bind (KeepsInv.memRead _ _ _ _ _) fun _ => KeepsInv.bind (KeepsInv.update fun _ h => h.jump _) fun _ =>
      KeepsInv.bind (KeepsInv.memRead _ _ _ _ _) fun _ => KeepsInv.update fun _ h => h.writePs_value (vectorPs_unused _ _)
  have h1 := hv _ h0
  unfold State.startUp
  dsimp only
  split
  · cases hr : loadPowerUpVector { s.emptyPipeline with phase := .service } with
    | ok a t => rw [hr] at h1; exact h1
    | error e t => rw [hr] at h1; exact nestedAbort h1 e
  · exact (h.emptyPipeline.setPriority _).enterConsole
  · exact (h0.jump _).setPriority _
  · exact (h0.jump _).setPriority _

theorem awaitPok (h : s.Inv) : s.awaitPok.Inv := by
  unfold State.awaitPok
  dsimp only
  split
  · exact (((h.gpRead _).gpWrite _).gpWrite _).startUp
  · exact h.gpRead _

/-! ## Console -/

theorem echo (h : s.Inv) (e : Entry) (c : Byte) : (s.echo e c).Inv := by
  cases e <;> simp only [State.echo] <;> (try split) <;> first | exact h | exact h.putChars _

theorem atConsole (h : s.Inv) (c : Console) : (s.atConsole c).Inv := h.congr rfl rfl rfl rfl rfl

theorem awaitChar (h : s.Inv) (e : Entry) : (s.awaitChar e).Inv := h.atConsole _

theorem prompt (h : s.Inv) : s.prompt.Inv := (h.putChars _).awaitChar _

theorem consoleError (h : s.Inv) : s.consoleError.Inv := (h.putChars _).prompt

/-- The console's bus traffic keeps the invariant if its piece does. -/
theorem consoleBus (h : s.Inv) {α : Type} {m : M α} (hm : KeepsInv m) : (s.consoleBus m).2.Inv := by
  have h0 : State.Inv { s with flow := { s.flow with pendParity := false } } := h.congr rfl rfl rfl rfl rfl
  have h1 := hm _ h0
  unfold State.consoleBus
  cases hr : m { s with flow := { s.flow with pendParity := false } } with
  | ok v t => rw [hr] at h1; exact State.Inv.congr h1 rfl rfl rfl rfl rfl
  | error e t => rw [hr] at h1; exact State.Inv.congr h1 rfl rfl rfl rfl rfl

theorem consoleRead (h : s.Inv) (t : Target) : (s.consoleRead t).2.Inv := by
  unfold State.consoleRead
  split
  · exact h
  · exact h
  · split
    · exact h
    · exact h.consoleBus (KeepsInv.physRead _ _)

theorem dropStale (h : s.Inv) : s.dropStale.Inv := h.congr rfl rfl rfl rfl rfl

theorem deposit (h : s.Inv) (t : Target) (v : Word) : (s.deposit t v).2.Inv := by
  cases t with
  | reg r => exact (h.setReg r v).dropStale
  | ps => exact (h.writePs rfl).dropStale
  | mem a =>
    exact State.Inv.dropStale (h.consoleBus (KeepsInv.bind (KeepsInv.physWrite .word a v) fun _ => KeepsInv.pure ()))

theorem open_ (h : s.Inv) (t : Target) : (s.open t).Inv := by
  have h1 := h.consoleRead t
  unfold State.open
  cases hr : s.consoleRead t with
  | mk o s1 =>
    rw [hr] at h1
    cases o with
    | none => exact State.Inv.consoleError h1
    | some w => exact (State.Inv.putChars h1 _).awaitChar _

theorem close (h : s.Inv) (t : Target) (d : Option (BitVec 18)) : (s.close t d).2.Inv := by
  cases d with
  | none => exact h
  | some d => exact h.deposit _ _

theorem openNext (h : s.Inv) (t : Target) : (s.openNext t).Inv := by
  cases t with
  | ps => exact h.prompt
  | reg r => exact (h.putChars _).atConsole _
  | mem a => exact (h.putChars _).atConsole _

theorem printGo (h : s.Inv) (a : Word) : (s.printGo a).Inv := (h.putChars _).atConsole _

theorem consoleGo (h : s.Inv) (a : Word) : (s.consoleGo a).Inv := by
  have h1 : State.Inv { s.jump a with
      ps := 0#16
      sys := { pirq := 0#7, cpuerr := 0#16, ccr := s.sys.ccr }
      mmu := { s.mmu with mmr0 := s.mmu.mmr0 &&& 0o017776#16, mmr3 := 0#16 }
      fpu := { s.fpu with fps := 0#16 } } :=
    ⟨h.mem_wf, h.mem_bound, BitVec.zero_and, BitVec.zero_and, h.ccr_unused, h.pdr_unused, and_unused h.mmr0_unused,
      BitVec.zero_and, BitVec.zero_and⟩
  have key : ∀ s1 : State, s1.Inv → State.Inv { s1 with sys := { s1.sys with ccr := 0#16 } } := fun s1 hs =>
    ⟨hs.mem_wf, hs.mem_bound, hs.ps_unused, hs.cpuerr_unused, BitVec.zero_and, hs.pdr_unused, hs.mmr0_unused, hs.mmr3_unused,
      hs.fps_unused⟩
  have hw := h1.consoleBus (KeepsInv.physWrite .word 0o17777744#22 0#16)
  unfold State.consoleGo
  exact State.Inv.congr (((((key _ hw).gpRead 0o000#8).gpWrite 0o014#8).gpWrite 0o214#8).gpWrite 0o034#8)
    rfl rfl rfl rfl rfl

theorem consoleProceed (h : s.Inv) : s.consoleProceed.Inv := h.congr rfl rfl rfl rfl rfl

theorem dumpBytes_inv : ∀ (n : Nat) (a : Word), KeepsInv (dumpBytes n a)
  | 0, _ => KeepsInv.pure _
  | n + 1, _ => KeepsInv.bind (KeepsInv.physRead _ _) fun _ => KeepsInv.bind (dumpBytes_inv n _) fun _ => KeepsInv.pure _

theorem dump (h : s.Inv) (a : Word) : (s.dump a).Inv := by
  have h1 := h.consoleBus (dumpBytes_inv 10 a)
  unfold State.dump
  cases hr : s.consoleBus (dumpBytes 10 a) with
  | mk o s1 =>
    rw [hr] at h1
    cases o with
    | none => exact State.Inv.consoleError h1
    | some bs => exact State.Inv.prompt (State.Inv.putChars h1 _)

theorem atPrompt (h : s.Inv) (k : BitVec 7) : (s.atPrompt k).Inv := by
  unfold State.atPrompt
  split
  · exact h.atConsole _
  · split
    · exact h.atConsole _
    · split
      · exact h.printGo _
      · split
        · exact h.consoleProceed
        · split
          · exact h.atConsole _
          · exact h.consoleError

theorem atNumber (h : s.Inv) (n : BitVec 24) (k : BitVec 7) : (s.atNumber n k).Inv := by
  unfold State.atNumber
  split
  · exact h.atConsole _
  · split
    · exact h.open_ _
    · split
      · exact h.printGo _
      · exact h.consoleError

theorem atDesignator (h : s.Inv) (l : Option (BitVec 7)) (k : BitVec 7) : (s.atDesignator l k).Inv := by
  unfold State.atDesignator
  split
  · split
    · exact h.open_ _
    · exact h.consoleError
  · split
    · exact h.consoleError
    · exact h.atConsole _

theorem atOpened (h : s.Inv) (t : Target) (d : Option (BitVec 18)) (k : BitVec 7) : (s.atOpened t d k).Inv := by
  have h1 := h.close t d
  unfold State.atOpened
  split
  · exact h.atConsole _
  · cases hc : s.close t d with
    | mk o s1 =>
      rw [hc] at h1
      cases o <;> dsimp only <;> split
      · exact State.Inv.consoleError h1
      · split
        · exact State.Inv.consoleError h1
        · exact h.consoleError
      · exact State.Inv.prompt h1
      · split
        · exact State.Inv.openNext h1 _
        · exact h.consoleError

theorem consoleChar (h : s.Inv) (e : Entry) (ch : Byte) : (s.consoleChar e ch).Inv := by
  cases e with
  | prompt => exact h.atPrompt _
  | number n => exact h.atNumber _ _
  | designator l => exact h.atDesignator _ _
  | opened t d => exact h.atOpened _ _ _
  | dumpHigh => exact h.atConsole _
  | dumpLow b => exact h.dump _

theorem takeChar (h : s.Inv) : s.takeChar.Inv := h.congr rfl rfl rfl rfl rfl

theorem consoleAct (h : s.Inv) (c : Console) : (s.consoleAct c).Inv := by
  cases c with
  | entering => exact h.takeChar.prompt
  | read e =>
    simp only [State.consoleAct]
    split
    · exact h
    · exact (h.takeChar.echo _ _).atConsole _
  | typed e ch => exact h.consoleChar _ _
  | next t => exact h.open_ _
  | go a => exact h.consoleGo _

theorem consoleStep (h : s.Inv) (c : Console) : (s.consoleStep c).Inv := by
  unfold State.consoleStep
  split
  · split
    · exact h.congr rfl rfl rfl rfl rfl
    · exact h
  · exact h.consoleAct c

end State.Inv

namespace KeepsInv

theorem checkFetchable (a : PAddr) : KeepsInv (Machine.checkFetchable a) := by
  refine bind (look _) fun d => ?_
  split
  · exact pure _
  · exact raise _
  · exact pure _

theorem readInstruction : KeepsInv Machine.readInstruction :=
  bind (look _) fun _ => bind (checkAligned _ _) fun _ => bind (look _) fun _ => bind (translate _ _ _ _) fun _ =>
    bind (checkFetchable _) fun _ => physRead _ _

theorem resolveStale (w : Word) : KeepsInv (Machine.resolveStale w) := by
  intro s h
  unfold Machine.resolveStale
  split
  · exact h
  · exact h.congr rfl rfl rfl rfl rfl

theorem fetchInstruction : KeepsInv Machine.fetchInstruction := by
  intro s h
  have h1 := readInstruction s h
  unfold Machine.fetchInstruction
  cases hr : Machine.readInstruction s with
  | ok w t => rw [hr] at h1; exact resolveStale w _ (h1.setPc _)
  | error e t =>
    rw [hr] at h1
    cases e with
    | ended => exact h1
    | raise e =>
      have h2 : t.emptyPipeline.Inv := State.Inv.congr h1 rfl rfl rfl rfl rfl
      show State.Inv (if e.isBusError then t.emptyPipeline.advancePc else t.emptyPipeline)
      split
      · exact h2.setPc _
      · exact h2

end KeepsInv

/-- What it is for the instructions' meanings to keep the invariant. -/
def RunKeepsInv (run : Instr → State → Host.Outcome State Fault Refusal) : Prop :=
  ∀ i s t, s.Inv → run i s = .next t → t.Inv

variable {run : Instr → State → Host.Outcome State Fault Refusal} {s t : State}

theorem instructionCycle_inv (hrun : RunKeepsInv run) (h : s.Inv) (hc : instructionCycle run s = .next t) : t.Inv := by
  have h1 := KeepsInv.fetchInstruction _ h.beginInstruction
  unfold instructionCycle at hc
  cases hf : fetchInstruction s.beginInstruction with
  | ok w s1 =>
    rw [hf] at h1 hc
    dsimp only at hc
    cases hr : run (decode s1.fd s1.fl w) s1 with
    | next s2 =>
      rw [hr] at hc
      cases hc
      exact (hrun _ _ _ h1 hr).endInstruction _
    | fault r => rw [hr] at hc; cases hc
    | refused r => rw [hr] at hc; cases hc
  | error e s1 =>
    rw [hf] at h1 hc
    cases e with
    | raise e => cases hc; exact State.Inv.takeEvent h1 e
    | ended => cases hc; exact h1

theorem phaseStep_inv (hrun : RunKeepsInv run) (h : s.Inv) (hc : phaseStep run s = .next t) : t.Inv := by
  unfold phaseStep at hc
  split at hc
  · cases hc; exact h.powerUp
  · split at hc
    · cases hc
    · cases hc; exact h.awaitPok
  · split at hc
    · cases hc; exact h.service ‹_›
    · exact instructionCycle_inv hrun h hc
  · exact instructionCycle_inv (s := { s with phase := .service }) hrun (h.congr rfl rfl rfl rfl rfl) hc
  · cases hc; exact h.waitStep
  · cases hc; exact h.trapSequence _ _
  · split at hc
    · cases hc; exact h.consoleStep _
    · cases hc

/-- A whole step keeps the invariant if the meanings do. -/
theorem cycle_inv (hrun : RunKeepsInv run) (h : s.Inv) (hc : cycle run s = .next t) : t.Inv := by
  unfold cycle at hc
  split at hc
  · cases hc; exact h.sampleInputs.initialise
  · exact phaseStep_inv hrun h.sampleInputs hc

end Sys2Proof.Machine
end

