-- ==== Sys2Proof/Laws/InvMeanings.lean ====
section
/-! SUPPORT. The machine's invariant is kept by every instruction's body. -/

namespace Sys2Proof.Machine.KeepsInv

/-! ## Single and double operand -/

theorem moveFromPs (f : Operand) : KeepsInv (Machine.moveFromPs f) :=
  bind (place _ _) fun _ => bind (look _) fun _ => bind (look _) fun _ => bind (writeByteExtended _ _) fun _ => setCc _ _

theorem moveToPs (f : Operand) : KeepsInv (Machine.moveToPs f) :=
  bind (readOp _ _) fun _ => update fun _ h => h.writePs (by split <;> rfl)

theorem testAndSet (f : Operand) : KeepsInv (Machine.testAndSet f) :=
  ite (raise _) (bind (place _ _) fun _ => bind (readPlace _ _ _) fun _ => bind (update fun _ h => h.setReg _ _) fun _ =>
    bind (lockedCycle (writePlace _ _ _)) fun _ => setCc _ _)

theorem writeLocked (f : Operand) : KeepsInv (Machine.writeLocked f) :=
  ite (raise _) (bind (place _ _) fun _ => bind (readPlace _ _ _) fun _ => bind (look _) fun _ => bind (look _) fun _ =>
    bind (lockedCycle (writePlace _ _ _)) fun _ => setCc _ _)

theorem swapBytes (f : Operand) : KeepsInv (Machine.swapBytes f) :=
  bind (place _ _) fun _ => bind (readPlace _ _ _) fun _ => bind (writePlace _ _ _) fun _ => setCc _ _

theorem moveByte (a b : Operand) : KeepsInv (Machine.moveByte a b) :=
  bind (earlySource _ _) fun _ => bind (place _ _) fun _ => bind (lateSource _ _ _) fun _ => bind (look _) fun _ =>
    bind (writeByteExtended _ _) fun _ => setCc _ _

theorem multiply (r : Reg) (f : Operand) : KeepsInv (Machine.multiply r f) :=
  bind (readOp _ _) fun _ => bind (look _) fun _ => bind (update fun _ h => (h.setReg _ _).setReg _ _) fun _ => setCc _ _

theorem divide (r : Reg) (f : Operand) : KeepsInv (Machine.divide r f) :=
  bind (readOp _ _) fun _ => ite
    (bind (draw _) fun _ => bind (draw _) fun _ => bind (draw _) fun _ => bind (draw _) fun _ => bind (draw _) fun _ =>
      bind (update fun _ h => h.setReg _ _) fun _ => setCc _ _)
    (bind (look _) fun n => by
      split
      · exact bind (update fun _ h => (h.setReg _ _).setReg _ _) fun _ => setCc _ _
      · exact bind (draw _) fun _ => bind (draw _) fun _ => setCc _ _
      · exact bind (draw _) fun _ => bind (draw _) fun _ => setCc _ _)

theorem shiftRegister (r : Reg) (f : Operand) : KeepsInv (Machine.shiftRegister r f) :=
  bind (readOp _ _) fun _ => bind (look _) fun _ => bind (update fun _ h => h.setReg _ _) fun _ => setCc _ _

theorem shiftPair (r : Reg) (f : Operand) : KeepsInv (Machine.shiftPair r f) :=
  bind (readOp _ _) fun _ => bind (look _) fun _ => bind (update fun _ h => (h.setReg _ _).setReg _ _) fun _ => setCc _ _

/-! ## Program control -/

theorem branchIf (c : Cc → Bool) (o : BitVec 8) : KeepsInv (Machine.branchIf c o) := update fun s h => by
  split
  · exact h.jump _
  · exact h

theorem subtractAndBranch (r : Reg) (o : BitVec 6) : KeepsInv (Machine.subtractAndBranch r o) :=
  bind (update fun _ h => h.setReg _ _) fun _ => update fun s h => by
    split
    · exact h
    · exact h.jump _

theorem jumpTo (f : Operand) : KeepsInv (Machine.jumpTo f) :=
  ite (raise _) (bind (effectiveAddress _ _) fun _ => update fun _ h => h.jump _)

theorem jumpSubroutine (r : Reg) (f : Operand) : KeepsInv (Machine.jumpSubroutine r f) :=
  ite (raise _) (bind (effectiveAddress _ _) fun _ => bind (look _) fun _ => bind (push _) fun _ => bind (look _) fun _ =>
    bind (stackCheck _) fun _ => bind (update fun _ h => h.setReg _ _) fun _ => update fun _ h => h.jump _)

theorem returnSubroutine (r : Reg) : KeepsInv (Machine.returnSubroutine r) :=
  bind pop fun _ => bind (update fun _ h => h.jump _) fun _ => update fun _ h => h.setReg _ _

theorem mark (n : BitVec 6) : KeepsInv (Machine.mark n) :=
  bind (update fun _ h => h.setReg _ _) fun _ => bind (update fun _ h => h.jump _) fun _ => bind pop fun _ =>
    update fun _ h => h.setReg _ _

theorem returnInterrupt : KeepsInv Machine.returnInterrupt :=
  bind returnFromTrap fun _ => update fun s h => by
    split
    · exact h.congr rfl rfl rfl rfl rfl
    · exact h

theorem supervisorPs_unused {ps : Word} (h : ps &&& 0o003000#16 = 0#16) : supervisorPs ps &&& 0o003000#16 = 0#16 :=
  mergeBits_unused (mergeBits_unused h rfl) rfl

theorem callSupervisor (f : Operand) : KeepsInv (Machine.callSupervisor f) :=
  bind (look _) fun _ => ite
    (bind (readOp _ _) fun _ => bind (look _) fun _ => bind (update fun _ h => h.setStackPtr _ _) fun _ =>
      bind (update fun _ h => h.writePs_value (supervisorPs_unused h.ps_unused)) fun _ => bind (push _) fun _ =>
      bind (look _) fun _ => bind (push _) fun _ => bind (push _) fun _ => bind (memRead _ _ _ _ _) fun _ =>
      update fun _ h => h.jump _)
    (raise _)

/-! ## Miscellaneous -/

theorem halt : KeepsInv Machine.halt := bind (look _) fun _ => ite (update fun _ h => h.enterConsole) (raise _)

theorem waitInterrupt : KeepsInv Machine.waitInterrupt := update fun s h => by
  split
  · exact h.congr rfl rfl rfl rfl rfl
  · exact h

theorem resetBus : KeepsInv Machine.resetBus := update fun s h => by
  split
  · exact ⟨h.mem_wf, h.mem_bound, h.ps_unused, h.cpuerr_unused, h.ccr_unused, h.pdr_unused, and_unused h.mmr0_unused,
      BitVec.zero_and, h.fps_unused⟩
  · exact h

theorem setPriorityLevel (n : BitVec 3) : KeepsInv (Machine.setPriorityLevel n) := update fun s h => by
  split
  · exact h.writePs rfl
  · exact h

theorem moveFromPrevious (sp : Space) (f : Operand) : KeepsInv (Machine.moveFromPrevious sp f) :=
  bind (look _) fun _ => bind
    (ite (look _) (bind (effectiveAddress _ _) fun _ => bind (look _) fun _ => memRead _ _ _ _ _))
    fun _ => bind (push _) fun _ => bind (look _) fun _ => setCc _ _

theorem moveToPrevious (sp : Space) (f : Operand) : KeepsInv (Machine.moveToPrevious sp f) :=
  bind (look _) fun _ => bind pop fun _ => bind
    (ite (fun s h => by
        show State.Inv (if f.reg = .sp then s.setStackPtr _ _ else s.setReg _ _)
        split
        · exact h.setStackPtr _ _
        · exact h.setReg _ _)
      (bind (effectiveAddress _ _) fun _ => memWrite _ _ _ _ _))
    fun _ => bind (look _) fun _ => setCc _ _

theorem ccOperator (on : Bool) (k : BitVec 4) : KeepsInv (Machine.ccOperator on k) := update fun s h => by
  have hk : k.setWidth 16 &&& 0o003000#16 = 0#16 := by revert k; decide
  refine ⟨h.mem_wf, h.mem_bound, ?_, h.cpuerr_unused, h.ccr_unused, h.pdr_unused, h.mmr0_unused, h.mmr3_unused, h.fps_unused⟩
  show (if on then s.ps ||| k.setWidth 16 else s.ps &&& ~~~(k.setWidth 16)) &&& _ = _
  split
  · exact or_unused h.ps_unused hk
  · exact and_unused h.ps_unused

/-! ## Floating point -/

theorem floatPlace (f : Operand) (fmt : FFormat) : KeepsInv (Machine.floatPlace f fmt) := by
  unfold Machine.floatPlace
  refine ite ?_ (bind (effectiveAddress _ _) fun _ => pure _)
  split
  · exact pure _
  · exact bind (update fun _ h => h.floatException _) fun _ => ended

theorem readFloatPlace (f : Operand) (fmt : FFormat) (p : FPlace) : KeepsInv (Machine.readFloatPlace f fmt p) := by
  cases p
  · exact look _
  · exact bind (readWords _ _ _) fun _ => pure _

theorem writeFloatPlace (f : Operand) (fmt : FFormat) (p : FPlace) (v : BitVec 64) :
    KeepsInv (Machine.writeFloatPlace f fmt p v) := by
  cases p
  · exact update fun _ h => h.setAcc _ _ _
  · exact bind (writeLongAt _ _ _ _ _) fun _ => pure _

theorem checkUndefined (p : FPlace) (v : BitVec 64) : KeepsInv (Machine.checkUndefined p v) :=
  bind (look _) fun _ => ite (bind (update fun _ h => h.floatException _) fun _ => ended) (pure _)

theorem readFloatSource (f : Operand) (fmt : FFormat) : KeepsInv (Machine.readFloatSource f fmt) :=
  bind (floatPlace _ _) fun _ => bind (readFloatPlace _ _ _) fun _ => bind (checkUndefined _ _) fun _ => pure _

theorem raiseCode_inv {s : State} (h : s.Inv) (c : Option (BitVec 4)) : (s.raiseCode c).Inv := by
  cases c
  · exact h
  · exact h.floatException _

theorem storeResult_inv {s : State} (h : s.Inv) (n : Fin 6) (fmt : FFormat) (r : FResult) : (s.storeResult n fmt r).Inv :=
  (raiseCode_inv (h.setAcc _ _ _) _).withFcc _

theorem storeArith (n : Fin 6) (fmt : FFormat) (x : Exact) : KeepsInv (Machine.storeArith n fmt x) :=
  update fun _ h => storeResult_inv h _ _ _

theorem copyFloatCc : KeepsInv Machine.copyFloatCc := update fun _ h => h.withCc _

theorem setFloatMode (b : Word) (on : Bool) (hb : b &&& 0o030020#16 = 0#16) : KeepsInv (Machine.setFloatMode b on) :=
  update fun s h => h.withFps (by
    split
    · exact or_unused h.fps_unused hb
    · exact and_unused h.fps_unused)

theorem loadFps (f : Operand) : KeepsInv (Machine.loadFps f) :=
  bind (readOp _ _) fun _ => update fun _ h => h.withFps (and_mask_unused rfl)

theorem storeFps (f : Operand) : KeepsInv (Machine.storeFps f) :=
  bind (place _ _) fun _ => bind (look _) fun _ => bind (writePlace _ _ _) fun _ => pure _

theorem storeStatus (f : Operand) : KeepsInv (Machine.storeStatus f) :=
  ite (update fun _ h => h.setReg _ _) (bind (effectiveAddress _ _) fun _ => bind (look _) fun _ =>
    bind (writeLongAt _ _ _ _ _) fun _ => pure _)

theorem clearFloat (f : Operand) : KeepsInv (Machine.clearFloat f) :=
  bind (look _) fun _ => bind (floatPlace _ _) fun _ => bind (writeFloatPlace _ _ _ _) fun _ => update fun _ h => h.withFcc _

theorem testFloat (f : Operand) : KeepsInv (Machine.testFloat f) :=
  bind (look _) fun _ => bind (readFloatSource _ _) fun _ => update fun _ h => h.withFcc _

theorem modifyFloat (g : BitVec 64 → BitVec 64) (f : Operand) : KeepsInv (Machine.modifyFloat g f) :=
  bind (look _) fun _ => bind (floatPlace _ _) fun _ => bind (readFloatPlace _ _ _) fun _ => bind (checkUndefined _ _) fun _ =>
    bind (writeFloatPlace _ _ _ _) fun _ => update fun _ h => h.withFcc _

theorem loadFloat (ac : AcField) (f : Operand) : KeepsInv (Machine.loadFloat ac f) :=
  bind (look _) fun _ => bind (readFloatSource _ _) fun _ => update fun _ h => (h.setAcc _ _ _).withFcc _

theorem storeFloat (ac : AcField) (f : Operand) : KeepsInv (Machine.storeFloat ac f) :=
  bind (look _) fun _ => bind (floatPlace _ _) fun _ => bind (look _) fun _ => writeFloatPlace _ _ _ _

theorem arithFloat (op : Exact → Exact → Exact) (ac : AcField) (f : Operand) : KeepsInv (Machine.arithFloat op ac f) :=
  bind (look _) fun _ => bind (readFloatSource _ _) fun _ => bind (look _) fun _ => storeArith _ _ _

theorem divideFloat (ac : AcField) (f : Operand) : KeepsInv (Machine.divideFloat ac f) :=
  bind (look _) fun _ => bind (readFloatSource _ _) fun _ => ite
    (bind (update fun _ h => h.floatException _) fun _ => ended) (bind (look _) fun _ => storeArith _ _ _)

theorem compareFloat (ac : AcField) (f : Operand) : KeepsInv (Machine.compareFloat ac f) :=
  bind (look _) fun _ => bind (readFloatSource _ _) fun _ => bind (look _) fun _ =>
    bind (update fun _ h => h.withFcc _) fun _ => update fun s h => by
      split
      · exact h.setAcc _ _ _
      · exact h

theorem modFloat (ac : AcField) (f : Operand) : KeepsInv (Machine.modFloat ac f) :=
  bind (look _) fun _ => bind (readFloatSource _ _) fun _ => bind (look _) fun _ => bind (draw _) fun _ =>
    update fun _ h => storeResult_inv (h.setAcc _ _ _) _ _ _

theorem setExponent_inv {s : State} (h : s.Inv) (n : Fin 6) (e : BitVec 8) : (s.setExponent n e).Inv :=
  h.congr rfl rfl rfl rfl rfl

theorem loadExp (ac : AcField) (f : Operand) : KeepsInv (Machine.loadExp ac f) :=
  bind (readOp _ _) fun n => update fun s h => by
    have key : ∀ r : State × Bool, r.1.Inv → (r.1.withFcc (floatCc (r.1.acc (acNumber ac) s.precision) r.2 false)).Inv :=
      fun _ hr => hr.withFcc _
    refine key _ ?_
    split
    · split
      · exact (setExponent_inv h _ _).floatException _
      · exact h.setAcc _ _ _
    · split
      · split
        · exact (setExponent_inv h _ _).floatException _
        · exact h.setAcc _ _ _
      · exact setExponent_inv h _ _

theorem storeExp (ac : AcField) (f : Operand) : KeepsInv (Machine.storeExp ac f) :=
  bind (place _ _) fun _ => bind (look _) fun _ => bind (writePlace _ _ _) fun _ => bind (update fun _ h => h.withFcc _) fun _ =>
    setCc _ _

theorem readInteger (f : Operand) : KeepsInv (Machine.readInteger f) :=
  bind (look _) fun _ => ite
    (ite (bind (look _) fun _ => pure _) (bind (readLong _ _) fun _ => pure _)) (bind (readOp _ _) fun _ => pure _)

theorem loadInteger (ac : AcField) (f : Operand) : KeepsInv (Machine.loadInteger ac f) :=
  bind (readInteger _) fun _ => bind (look _) fun _ => update fun _ h => storeResult_inv h _ _ _

theorem writeInteger (f : Operand) (long : Bool) (r : BitVec 32) : KeepsInv (Machine.writeInteger f long r) :=
  ite (ite (fun _ h => h.setReg _ _) (writeLong _ _ _)) (writeOp _ _ _)

theorem storeInteger (ac : AcField) (f : Operand) : KeepsInv (Machine.storeInteger ac f) :=
  bind (look _) fun _ => bind (look _) fun _ => bind (writeInteger _ _ _) fun _ => bind (update fun _ h => h.withFcc _) fun _ =>
    bind (setCc _ _) fun _ => update fun s h => by
      split
      · exact h.floatException _
      · exact h

theorem loadConvert (ac : AcField) (f : Operand) : KeepsInv (Machine.loadConvert ac f) :=
  bind (look _) fun _ => bind (readFloatSource _ _) fun _ => update fun _ h => storeResult_inv h _ _ _

theorem storeConvert (ac : AcField) (f : Operand) : KeepsInv (Machine.storeConvert ac f) :=
  bind (look _) fun _ => bind (look _) fun _ => bind (floatPlace _ _) fun _ => bind (writeFloatPlace _ _ _ _) fun _ =>
    bind (update fun _ h => raiseCode_inv h _) fun _ => update fun _ h => h.withFcc _

end Sys2Proof.Machine.KeepsInv
end

