-- ==== Sys2Proof/Laws/PerInstr.lean ====
section
/-! SUPPORT. The family F: every instruction's word lies in a row of spec/opcode_table.json that has its mnemonic. -/

namespace Sys2Proof.Laws

/-- The mask and the match of each row of spec/opcode_table.json with the instruction's mnemonic. -/
def opcodeRows : Instr → List (Word × Word)
  | .halt => [(0o177777#16, 0o000000#16)]
  | .wait => [(0o177777#16, 0o000001#16)]
  | .rti => [(0o177777#16, 0o000002#16)]
  | .bpt => [(0o177777#16, 0o000003#16)]
  | .iot => [(0o177777#16, 0o000004#16)]
  | .reset => [(0o177777#16, 0o000005#16)]
  | .rtt => [(0o177777#16, 0o000006#16)]
  | .mfpt => [(0o177777#16, 0o000007#16)]
  | .reserved _ =>
    [(0o177770#16, 0o000010#16), (0o177760#16, 0o000020#16), (0o177740#16, 0o000040#16),
     (0o177770#16, 0o000210#16), (0o177770#16, 0o000220#16), (0o177700#16, 0o007100#16),
     (0o177400#16, 0o007400#16), (0o177000#16, 0o075000#16), (0o177000#16, 0o076000#16),
     (0o177000#16, 0o107000#16)]
  | .ccop _ _ => [(0o177740#16, 0o000240#16)]
  | .nop => [(0o177777#16, 0o000240#16)]
  | .clc => [(0o177777#16, 0o000241#16)]
  | .clv => [(0o177777#16, 0o000242#16)]
  | .clz => [(0o177777#16, 0o000244#16)]
  | .cln => [(0o177777#16, 0o000250#16)]
  | .ccc => [(0o177777#16, 0o000257#16)]
  | .sec => [(0o177777#16, 0o000261#16)]
  | .sev => [(0o177777#16, 0o000262#16)]
  | .sez => [(0o177777#16, 0o000264#16)]
  | .sen => [(0o177777#16, 0o000270#16)]
  | .scc => [(0o177777#16, 0o000277#16)]
  | .jmp _ => [(0o177700#16, 0o000100#16)]
  | .jsr _ _ => [(0o177000#16, 0o004000#16)]
  | .rts _ => [(0o177770#16, 0o000200#16)]
  | .spl _ => [(0o177770#16, 0o000230#16)]
  | .mark _ => [(0o177700#16, 0o006400#16)]
  | .sob _ _ => [(0o177000#16, 0o077000#16)]
  | .emt _ => [(0o177400#16, 0o104000#16)]
  | .trap _ => [(0o177400#16, 0o104400#16)]
  | .br _ => [(0o177400#16, 0o000400#16)]
  | .bne _ => [(0o177400#16, 0o001000#16)]
  | .beq _ => [(0o177400#16, 0o001400#16)]
  | .bge _ => [(0o177400#16, 0o002000#16)]
  | .blt _ => [(0o177400#16, 0o002400#16)]
  | .bgt _ => [(0o177400#16, 0o003000#16)]
  | .ble _ => [(0o177400#16, 0o003400#16)]
  | .bpl _ => [(0o177400#16, 0o100000#16)]
  | .bmi _ => [(0o177400#16, 0o100400#16)]
  | .bhi _ => [(0o177400#16, 0o101000#16)]
  | .blos _ => [(0o177400#16, 0o101400#16)]
  | .bvc _ => [(0o177400#16, 0o102000#16)]
  | .bvs _ => [(0o177400#16, 0o102400#16)]
  | .bcc _ => [(0o177400#16, 0o103000#16)]
  | .bcs _ => [(0o177400#16, 0o103400#16)]
  | .bhis _ => [(0o177400#16, 0o103000#16)]
  | .blo _ => [(0o177400#16, 0o103400#16)]
  | .swab _ => [(0o177700#16, 0o000300#16)]
  | .clr _ => [(0o177700#16, 0o005000#16)]
  | .com _ => [(0o177700#16, 0o005100#16)]
  | .inc _ => [(0o177700#16, 0o005200#16)]
  | .dec _ => [(0o177700#16, 0o005300#16)]
  | .neg _ => [(0o177700#16, 0o005400#16)]
  | .adc _ => [(0o177700#16, 0o005500#16)]
  | .sbc _ => [(0o177700#16, 0o005600#16)]
  | .tst _ => [(0o177700#16, 0o005700#16)]
  | .ror _ => [(0o177700#16, 0o006000#16)]
  | .rol _ => [(0o177700#16, 0o006100#16)]
  | .asr _ => [(0o177700#16, 0o006200#16)]
  | .asl _ => [(0o177700#16, 0o006300#16)]
  | .mfpi _ => [(0o177700#16, 0o006500#16)]
  | .mtpi _ => [(0o177700#16, 0o006600#16)]
  | .sxt _ => [(0o177700#16, 0o006700#16)]
  | .csm _ => [(0o177700#16, 0o007000#16)]
  | .tstset _ => [(0o177700#16, 0o007200#16)]
  | .wrtlck _ => [(0o177700#16, 0o007300#16)]
  | .clrb _ => [(0o177700#16, 0o105000#16)]
  | .comb _ => [(0o177700#16, 0o105100#16)]
  | .incb _ => [(0o177700#16, 0o105200#16)]
  | .decb _ => [(0o177700#16, 0o105300#16)]
  | .negb _ => [(0o177700#16, 0o105400#16)]
  | .adcb _ => [(0o177700#16, 0o105500#16)]
  | .sbcb _ => [(0o177700#16, 0o105600#16)]
  | .tstb _ => [(0o177700#16, 0o105700#16)]
  | .rorb _ => [(0o177700#16, 0o106000#16)]
  | .rolb _ => [(0o177700#16, 0o106100#16)]
  | .asrb _ => [(0o177700#16, 0o106200#16)]
  | .aslb _ => [(0o177700#16, 0o106300#16)]
  | .mtps _ => [(0o177700#16, 0o106400#16)]
  | .mfpd _ => [(0o177700#16, 0o106500#16)]
  | .mtpd _ => [(0o177700#16, 0o106600#16)]
  | .mfps _ => [(0o177700#16, 0o106700#16)]
  | .mov _ _ => [(0o170000#16, 0o010000#16)]
  | .cmp _ _ => [(0o170000#16, 0o020000#16)]
  | .bit _ _ => [(0o170000#16, 0o030000#16)]
  | .bic _ _ => [(0o170000#16, 0o040000#16)]
  | .bis _ _ => [(0o170000#16, 0o050000#16)]
  | .add _ _ => [(0o170000#16, 0o060000#16)]
  | .movb _ _ => [(0o170000#16, 0o110000#16)]
  | .cmpb _ _ => [(0o170000#16, 0o120000#16)]
  | .bitb _ _ => [(0o170000#16, 0o130000#16)]
  | .bicb _ _ => [(0o170000#16, 0o140000#16)]
  | .bisb _ _ => [(0o170000#16, 0o150000#16)]
  | .sub _ _ => [(0o170000#16, 0o160000#16)]
  | .mul _ _ => [(0o177000#16, 0o070000#16)]
  | .div _ _ => [(0o177000#16, 0o071000#16)]
  | .ash _ _ => [(0o177000#16, 0o072000#16)]
  | .ashc _ _ => [(0o177000#16, 0o073000#16)]
  | .xor _ _ => [(0o177000#16, 0o074000#16)]
  | .cfcc => [(0o177777#16, 0o170000#16)]
  | .setf => [(0o177777#16, 0o170001#16)]
  | .seti => [(0o177777#16, 0o170002#16)]
  | .setd => [(0o177777#16, 0o170011#16)]
  | .setl => [(0o177777#16, 0o170012#16)]
  | .illegalFloat _ =>
    [(0o177777#16, 0o170003#16), (0o177774#16, 0o170004#16), (0o177777#16, 0o170010#16),
     (0o177777#16, 0o170013#16), (0o177774#16, 0o170014#16), (0o177760#16, 0o170020#16),
     (0o177740#16, 0o170040#16)]
  | .ldfps _ => [(0o177700#16, 0o170100#16)]
  | .stfps _ => [(0o177700#16, 0o170200#16)]
  | .stst _ => [(0o177700#16, 0o170300#16)]
  | .clrf _ => [(0o177700#16, 0o170400#16)]
  | .clrd _ => [(0o177700#16, 0o170400#16)]
  | .tstf _ => [(0o177700#16, 0o170500#16)]
  | .tstd _ => [(0o177700#16, 0o170500#16)]
  | .absf _ => [(0o177700#16, 0o170600#16)]
  | .absd _ => [(0o177700#16, 0o170600#16)]
  | .negf _ => [(0o177700#16, 0o170700#16)]
  | .negd _ => [(0o177700#16, 0o170700#16)]
  | .mulf _ _ => [(0o177400#16, 0o171000#16)]
  | .muld _ _ => [(0o177400#16, 0o171000#16)]
  | .modf _ _ => [(0o177400#16, 0o171400#16)]
  | .modd _ _ => [(0o177400#16, 0o171400#16)]
  | .addf _ _ => [(0o177400#16, 0o172000#16)]
  | .addd _ _ => [(0o177400#16, 0o172000#16)]
  | .ldf _ _ => [(0o177400#16, 0o172400#16)]
  | .ldd _ _ => [(0o177400#16, 0o172400#16)]
  | .subf _ _ => [(0o177400#16, 0o173000#16)]
  | .subd _ _ => [(0o177400#16, 0o173000#16)]
  | .cmpf _ _ => [(0o177400#16, 0o173400#16)]
  | .cmpd _ _ => [(0o177400#16, 0o173400#16)]
  | .stf _ _ => [(0o177400#16, 0o174000#16)]
  | .std _ _ => [(0o177400#16, 0o174000#16)]
  | .divf _ _ => [(0o177400#16, 0o174400#16)]
  | .divd _ _ => [(0o177400#16, 0o174400#16)]
  | .stexp _ _ => [(0o177400#16, 0o175000#16)]
  | .stcfi _ _ => [(0o177400#16, 0o175400#16)]
  | .stcfl _ _ => [(0o177400#16, 0o175400#16)]
  | .stcdi _ _ => [(0o177400#16, 0o175400#16)]
  | .stcdl _ _ => [(0o177400#16, 0o175400#16)]
  | .stcfd _ _ => [(0o177400#16, 0o176000#16)]
  | .stcdf _ _ => [(0o177400#16, 0o176000#16)]
  | .ldexp _ _ => [(0o177400#16, 0o176400#16)]
  | .ldcif _ _ => [(0o177400#16, 0o177000#16)]
  | .ldclf _ _ => [(0o177400#16, 0o177000#16)]
  | .ldcid _ _ => [(0o177400#16, 0o177000#16)]
  | .ldcld _ _ => [(0o177400#16, 0o177000#16)]
  | .ldcdf _ _ => [(0o177400#16, 0o177400#16)]
  | .ldcfd _ _ => [(0o177400#16, 0o177400#16)]

/-- A word lies in one of the rows. -/
def inRows (w : Word) (rows : List (Word × Word)) : Bool := rows.any fun r => w &&& r.1 == r.2

/-- The statement of family F about one instruction. -/
def F.Statement (i : Instr) : Prop := i.wf = true → inRows (encode i) (opcodeRows i) = true

/-- A word whose bits from `k` up are the number `c` lies in the row of that pattern. -/
theorem and_eq_of_div {w m p : Word} (k c : Nat) (hk : k < 16) (hm : m = BitVec.allOnes 16 <<< k)
    (hp : p = BitVec.ofNat 16 c <<< k) (h : w.toNat / 2 ^ k = c) : w &&& m = p := by
  have e : w >>> k = BitVec.ofNat 16 c := by
    apply BitVec.eq_of_toNat_eq
    have : c < 2 ^ 16 := by
      have := w.isLt
      have := Nat.div_le_self w.toNat (2 ^ k)
      omega
    rw [BitVec.toNat_ushiftRight, Nat.shiftRight_eq_div_pow, h, BitVec.toNat_ofNat, Nat.mod_eq_of_lt this]
  rw [hm, hp, ← e]
  ext i hi
  simp only [BitVec.getElem_and, BitVec.getElem_shiftLeft, BitVec.getElem_ushiftRight]
  by_cases hki : i < k
  · simp [hki]
  · simp only [hki, decide_false, Bool.not_false, Bool.true_and]
    rw [show k + (i - k) = i by omega, BitVec.getLsbD_eq_getElem hi]
    have : (BitVec.allOnes 16)[i - k]'(by omega) = true := BitVec.getElem_allOnes ..
    rw [this, Bool.and_true]

theorem toNat_append_eq {n k : Nat} (a : BitVec n) (b : BitVec k) : (a ++ b).toNat = a.toNat * 2 ^ k + b.toNat := by
  rw [BitVec.toNat_append, ← Nat.shiftLeft_add_eq_or_of_lt b.isLt, Nat.shiftLeft_eq]

theorem single_row {op : BitVec 10} {f : BitVec 6} {m p : Word} (hm : m = BitVec.allOnes 16 <<< 6)
    (hp : p = BitVec.ofNat 16 op.toNat <<< 6) : (op ++ f) &&& m = p :=
  and_eq_of_div 6 op.toNat (by decide) hm hp (by have := f.isLt; rw [toNat_append_eq]; omega)

theorem branch_row {op f : BitVec 8} {m p : Word} (hm : m = BitVec.allOnes 16 <<< 8)
    (hp : p = BitVec.ofNat 16 op.toNat <<< 8) : (op ++ f) &&& m = p :=
  and_eq_of_div 8 op.toNat (by decide) hm hp (by have := f.isLt; rw [toNat_append_eq]; omega)

theorem regOp_row {op : BitVec 7} {r : BitVec 3} {f : BitVec 6} {m p : Word} (hm : m = BitVec.allOnes 16 <<< 9)
    (hp : p = BitVec.ofNat 16 op.toNat <<< 9) : (op ++ r ++ f) &&& m = p :=
  and_eq_of_div 9 op.toNat (by decide) hm hp (by
    have := f.isLt; have := r.isLt; rw [toNat_append_eq, toNat_append_eq]; omega)

theorem double_row {op : BitVec 4} {a b : BitVec 6} {m p : Word} (hm : m = BitVec.allOnes 16 <<< 12)
    (hp : p = BitVec.ofNat 16 op.toNat <<< 12) : (op ++ a ++ b) &&& m = p :=
  and_eq_of_div 12 op.toNat (by decide) hm hp (by
    have := a.isLt; have := b.isLt; rw [toNat_append_eq, toNat_append_eq]; omega)

theorem float_row {foc : BitVec 4} {a : BitVec 2} {b : BitVec 6} {m p : Word} (hm : m = BitVec.allOnes 16 <<< 8)
    (hp : p = BitVec.ofNat 16 (0o360 + foc.toNat) <<< 8) : (0o17#4 ++ foc ++ a ++ b) &&& m = p :=
  and_eq_of_div 8 (0o360 + foc.toNat) (by decide) hm hp (by
    have := a.isLt; have := b.isLt; rw [toNat_append_eq, toNat_append_eq, toNat_append_eq]
    simp only [BitVec.toNat_ofNat]; omega)

theorem floatSingle_row {foc b : BitVec 6} {m p : Word} (hm : m = BitVec.allOnes 16 <<< 6)
    (hp : p = BitVec.ofNat 16 (0o1700 + foc.toNat) <<< 6) : (0o17#4 ++ foc ++ b) &&& m = p :=
  and_eq_of_div 6 (0o1700 + foc.toNat) (by decide) hm hp (by
    have := b.isLt; rw [toNat_append_eq, toNat_append_eq]; simp only [BitVec.toNat_ofNat]; omega)

/-- A word under its row's mask gives the row's match. -/
theorem inRows_of_eq {w m p : Word} (h : w &&& m = p) : inRows w [(m, p)] = true := by
  simp [inRows, h]

theorem F.halt : F.Statement (.halt) := fun _ => rfl
theorem F.wait : F.Statement (.wait) := fun _ => rfl
theorem F.rti : F.Statement (.rti) := fun _ => rfl
theorem F.bpt : F.Statement (.bpt) := fun _ => rfl
theorem F.iot : F.Statement (.iot) := fun _ => rfl
theorem F.reset : F.Statement (.reset) := fun _ => rfl
theorem F.rtt : F.Statement (.rtt) := fun _ => rfl
theorem F.mfpt : F.Statement (.mfpt) := fun _ => rfl
theorem F.reserved (code : Word) : F.Statement (.reserved code) := by
  intro h
  simp only [Instr.wf, reservedCode, Bool.or_eq_true, Bool.and_eq_true, decide_eq_true_eq] at h
  simp only [inRows, opcodeRows, encode, List.any_cons, List.any_nil, Bool.or_eq_true, beq_iff_eq, Bool.or_false]
  have cases : code.toNat / 2 ^ 3 = 1 ∨ code.toNat / 2 ^ 4 = 1 ∨ code.toNat / 2 ^ 5 = 1 ∨ code.toNat / 2 ^ 3 = 0o21 ∨
      code.toNat / 2 ^ 3 = 0o22 ∨ code.toNat / 2 ^ 6 = 0o71 ∨ code.toNat / 2 ^ 8 = 0o17 ∨ code.toNat / 2 ^ 9 = 0o75 ∨
      code.toNat / 2 ^ 9 = 0o76 ∨ code.toNat / 2 ^ 9 = 0o107 := by omega
  rcases cases with h | h | h | h | h | h | h | h | h | h
  · exact .inl (and_eq_of_div 3 1 (by decide) (by decide) (by decide) h)
  · exact .inr (.inl (and_eq_of_div 4 1 (by decide) (by decide) (by decide) h))
  · exact .inr (.inr (.inl (and_eq_of_div 5 1 (by decide) (by decide) (by decide) h)))
  · exact .inr (.inr (.inr (.inl (and_eq_of_div 3 0o21 (by decide) (by decide) (by decide) h))))
  · exact .inr (.inr (.inr (.inr (.inl (and_eq_of_div 3 0o22 (by decide) (by decide) (by decide) h)))))
  · exact .inr (.inr (.inr (.inr (.inr (.inl (and_eq_of_div 6 0o71 (by decide) (by decide) (by decide) h))))))
  · exact .inr (.inr (.inr (.inr (.inr (.inr (.inl (and_eq_of_div 8 0o17 (by decide) (by decide) (by decide) h)))))))
  · exact .inr (.inr (.inr (.inr (.inr (.inr (.inr (.inl (and_eq_of_div 9 0o75 (by decide) (by decide) (by decide) h))))))))
  · exact .inr (.inr (.inr (.inr (.inr (.inr (.inr (.inr (.inl (and_eq_of_div 9 0o76 (by decide) (by decide) (by decide) h)))))))))
  · exact .inr (.inr (.inr (.inr (.inr (.inr (.inr (.inr (.inr (and_eq_of_div 9 0o107 (by decide) (by decide) (by decide) h)))))))))
theorem F.ccop (sense : Bool) (mask : BitVec 4) : F.Statement (.ccop sense mask) :=
  by revert sense mask; unfold F.Statement; decide
theorem F.nop : F.Statement (.nop) := fun _ => rfl
theorem F.clc : F.Statement (.clc) := fun _ => rfl
theorem F.clv : F.Statement (.clv) := fun _ => rfl
theorem F.clz : F.Statement (.clz) := fun _ => rfl
theorem F.cln : F.Statement (.cln) := fun _ => rfl
theorem F.ccc : F.Statement (.ccc) := fun _ => rfl
theorem F.sec : F.Statement (.sec) := fun _ => rfl
theorem F.sev : F.Statement (.sev) := fun _ => rfl
theorem F.sez : F.Statement (.sez) := fun _ => rfl
theorem F.sen : F.Statement (.sen) := fun _ => rfl
theorem F.scc : F.Statement (.scc) := fun _ => rfl
theorem F.jmp (dst : Operand) : F.Statement (.jmp dst) := fun _ => inRows_of_eq (single_row (by decide) (by decide))
theorem F.jsr (r : Reg) (dst : Operand) : F.Statement (.jsr r dst) :=
  fun _ => inRows_of_eq (regOp_row (by decide) (by decide))
theorem F.rts (r : Reg) : F.Statement (.rts r) := by
  unfold F.Statement; cases r <;> decide
theorem F.spl (level : BitVec 3) : F.Statement (.spl level) := by revert level; unfold F.Statement; decide
theorem F.mark (count : BitVec 6) : F.Statement (.mark count) :=
  fun _ => inRows_of_eq (single_row (by decide) (by decide))
theorem F.sob (r : Reg) (offset : BitVec 6) : F.Statement (.sob r offset) :=
  fun _ => inRows_of_eq (regOp_row (by decide) (by decide))
theorem F.emt (code : BitVec 8) : F.Statement (.emt code) := fun _ => inRows_of_eq (branch_row (by decide) (by decide))
theorem F.trap (code : BitVec 8) : F.Statement (.trap code) :=
  fun _ => inRows_of_eq (branch_row (by decide) (by decide))
theorem F.br (offset : BitVec 8) : F.Statement (.br offset) :=
  fun _ => inRows_of_eq (branch_row (by decide) (by decide))
theorem F.bne (offset : BitVec 8) : F.Statement (.bne offset) :=
  fun _ => inRows_of_eq (branch_row (by decide) (by decide))
theorem F.beq (offset : BitVec 8) : F.Statement (.beq offset) :=
  fun _ => inRows_of_eq (branch_row (by decide) (by decide))
theorem F.bge (offset : BitVec 8) : F.Statement (.bge offset) :=
  fun _ => inRows_of_eq (branch_row (by decide) (by decide))
theorem F.blt (offset : BitVec 8) : F.Statement (.blt offset) :=
  fun _ => inRows_of_eq (branch_row (by decide) (by decide))
theorem F.bgt (offset : BitVec 8) : F.Statement (.bgt offset) :=
  fun _ => inRows_of_eq (branch_row (by decide) (by decide))
theorem F.ble (offset : BitVec 8) : F.Statement (.ble offset) :=
  fun _ => inRows_of_eq (branch_row (by decide) (by decide))
theorem F.bpl (offset : BitVec 8) : F.Statement (.bpl offset) :=
  fun _ => inRows_of_eq (branch_row (by decide) (by decide))
theorem F.bmi (offset : BitVec 8) : F.Statement (.bmi offset) :=
  fun _ => inRows_of_eq (branch_row (by decide) (by decide))
theorem F.bhi (offset : BitVec 8) : F.Statement (.bhi offset) :=
  fun _ => inRows_of_eq (branch_row (by decide) (by decide))
theorem F.blos (offset : BitVec 8) : F.Statement (.blos offset) :=
  fun _ => inRows_of_eq (branch_row (by decide) (by decide))
theorem F.bvc (offset : BitVec 8) : F.Statement (.bvc offset) :=
  fun _ => inRows_of_eq (branch_row (by decide) (by decide))
theorem F.bvs (offset : BitVec 8) : F.Statement (.bvs offset) :=
  fun _ => inRows_of_eq (branch_row (by decide) (by decide))
theorem F.bcc (offset : BitVec 8) : F.Statement (.bcc offset) :=
  fun _ => inRows_of_eq (branch_row (by decide) (by decide))
theorem F.bcs (offset : BitVec 8) : F.Statement (.bcs offset) :=
  fun _ => inRows_of_eq (branch_row (by decide) (by decide))
theorem F.bhis (offset : BitVec 8) : F.Statement (.bhis offset) :=
  fun _ => inRows_of_eq (branch_row (by decide) (by decide))
theorem F.blo (offset : BitVec 8) : F.Statement (.blo offset) :=
  fun _ => inRows_of_eq (branch_row (by decide) (by decide))
theorem F.swab (dst : Operand) : F.Statement (.swab dst) := fun _ => inRows_of_eq (single_row (by decide) (by decide))
theorem F.clr (dst : Operand) : F.Statement (.clr dst) := fun _ => inRows_of_eq (single_row (by decide) (by decide))
theorem F.com (dst : Operand) : F.Statement (.com dst) := fun _ => inRows_of_eq (single_row (by decide) (by decide))
theorem F.inc (dst : Operand) : F.Statement (.inc dst) := fun _ => inRows_of_eq (single_row (by decide) (by decide))
theorem F.dec (dst : Operand) : F.Statement (.dec dst) := fun _ => inRows_of_eq (single_row (by decide) (by decide))
theorem F.neg (dst : Operand) : F.Statement (.neg dst) := fun _ => inRows_of_eq (single_row (by decide) (by decide))
theorem F.adc (dst : Operand) : F.Statement (.adc dst) := fun _ => inRows_of_eq (single_row (by decide) (by decide))
theorem F.sbc (dst : Operand) : F.Statement (.sbc dst) := fun _ => inRows_of_eq (single_row (by decide) (by decide))
theorem F.tst (dst : Operand) : F.Statement (.tst dst) := fun _ => inRows_of_eq (single_row (by decide) (by decide))
theorem F.ror (dst : Operand) : F.Statement (.ror dst) := fun _ => inRows_of_eq (single_row (by decide) (by decide))
theorem F.rol (dst : Operand) : F.Statement (.rol dst) := fun _ => inRows_of_eq (single_row (by decide) (by decide))
theorem F.asr (dst : Operand) : F.Statement (.asr dst) := fun _ => inRows_of_eq (single_row (by decide) (by decide))
theorem F.asl (dst : Operand) : F.Statement (.asl dst) := fun _ => inRows_of_eq (single_row (by decide) (by decide))
theorem F.mfpi (src : Operand) : F.Statement (.mfpi src) := fun _ => inRows_of_eq (single_row (by decide) (by decide))
theorem F.mtpi (dst : Operand) : F.Statement (.mtpi dst) := fun _ => inRows_of_eq (single_row (by decide) (by decide))
theorem F.sxt (dst : Operand) : F.Statement (.sxt dst) := fun _ => inRows_of_eq (single_row (by decide) (by decide))
theorem F.csm (src : Operand) : F.Statement (.csm src) := fun _ => inRows_of_eq (single_row (by decide) (by decide))
theorem F.tstset (dst : Operand) : F.Statement (.tstset dst) :=
  fun _ => inRows_of_eq (single_row (by decide) (by decide))
theorem F.wrtlck (dst : Operand) : F.Statement (.wrtlck dst) :=
  fun _ => inRows_of_eq (single_row (by decide) (by decide))
theorem F.clrb (dst : Operand) : F.Statement (.clrb dst) := fun _ => inRows_of_eq (single_row (by decide) (by decide))
theorem F.comb (dst : Operand) : F.Statement (.comb dst) := fun _ => inRows_of_eq (single_row (by decide) (by decide))
theorem F.incb (dst : Operand) : F.Statement (.incb dst) := fun _ => inRows_of_eq (single_row (by decide) (by decide))
theorem F.decb (dst : Operand) : F.Statement (.decb dst) := fun _ => inRows_of_eq (single_row (by decide) (by decide))
theorem F.negb (dst : Operand) : F.Statement (.negb dst) := fun _ => inRows_of_eq (single_row (by decide) (by decide))
theorem F.adcb (dst : Operand) : F.Statement (.adcb dst) := fun _ => inRows_of_eq (single_row (by decide) (by decide))
theorem F.sbcb (dst : Operand) : F.Statement (.sbcb dst) := fun _ => inRows_of_eq (single_row (by decide) (by decide))
theorem F.tstb (dst : Operand) : F.Statement (.tstb dst) := fun _ => inRows_of_eq (single_row (by decide) (by decide))
theorem F.rorb (dst : Operand) : F.Statement (.rorb dst) := fun _ => inRows_of_eq (single_row (by decide) (by decide))
theorem F.rolb (dst : Operand) : F.Statement (.rolb dst) := fun _ => inRows_of_eq (single_row (by decide) (by decide))
theorem F.asrb (dst : Operand) : F.Statement (.asrb dst) := fun _ => inRows_of_eq (single_row (by decide) (by decide))
theorem F.aslb (dst : Operand) : F.Statement (.aslb dst) := fun _ => inRows_of_eq (single_row (by decide) (by decide))
theorem F.mtps (src : Operand) : F.Statement (.mtps src) := fun _ => inRows_of_eq (single_row (by decide) (by decide))
theorem F.mfpd (src : Operand) : F.Statement (.mfpd src) := fun _ => inRows_of_eq (single_row (by decide) (by decide))
theorem F.mtpd (dst : Operand) : F.Statement (.mtpd dst) := fun _ => inRows_of_eq (single_row (by decide) (by decide))
theorem F.mfps (dst : Operand) : F.Statement (.mfps dst) := fun _ => inRows_of_eq (single_row (by decide) (by decide))
theorem F.mov (src dst : Operand) : F.Statement (.mov src dst) :=
  fun _ => inRows_of_eq (double_row (by decide) (by decide))
theorem F.cmp (src dst : Operand) : F.Statement (.cmp src dst) :=
  fun _ => inRows_of_eq (double_row (by decide) (by decide))
theorem F.bit (src dst : Operand) : F.Statement (.bit src dst) :=
  fun _ => inRows_of_eq (double_row (by decide) (by decide))
theorem F.bic (src dst : Operand) : F.Statement (.bic src dst) :=
  fun _ => inRows_of_eq (double_row (by decide) (by decide))
theorem F.bis (src dst : Operand) : F.Statement (.bis src dst) :=
  fun _ => inRows_of_eq (double_row (by decide) (by decide))
theorem F.add (src dst : Operand) : F.Statement (.add src dst) :=
  fun _ => inRows_of_eq (double_row (by decide) (by decide))
theorem F.movb (src dst : Operand) : F.Statement (.movb src dst) :=
  fun _ => inRows_of_eq (double_row (by decide) (by decide))
theorem F.cmpb (src dst : Operand) : F.Statement (.cmpb src dst) :=
  fun _ => inRows_of_eq (double_row (by decide) (by decide))
theorem F.bitb (src dst : Operand) : F.Statement (.bitb src dst) :=
  fun _ => inRows_of_eq (double_row (by decide) (by decide))
theorem F.bicb (src dst : Operand) : F.Statement (.bicb src dst) :=
  fun _ => inRows_of_eq (double_row (by decide) (by decide))
theorem F.bisb (src dst : Operand) : F.Statement (.bisb src dst) :=
  fun _ => inRows_of_eq (double_row (by decide) (by decide))
theorem F.sub (src dst : Operand) : F.Statement (.sub src dst) :=
  fun _ => inRows_of_eq (double_row (by decide) (by decide))
theorem F.mul (r : Reg) (src : Operand) : F.Statement (.mul r src) :=
  fun _ => inRows_of_eq (regOp_row (by decide) (by decide))
theorem F.div (r : Reg) (src : Operand) : F.Statement (.div r src) :=
  fun _ => inRows_of_eq (regOp_row (by decide) (by decide))
theorem F.ash (r : Reg) (src : Operand) : F.Statement (.ash r src) :=
  fun _ => inRows_of_eq (regOp_row (by decide) (by decide))
theorem F.ashc (r : Reg) (src : Operand) : F.Statement (.ashc r src) :=
  fun _ => inRows_of_eq (regOp_row (by decide) (by decide))
theorem F.xor (r : Reg) (dst : Operand) : F.Statement (.xor r dst) :=
  fun _ => inRows_of_eq (regOp_row (by decide) (by decide))
theorem F.cfcc : F.Statement (.cfcc) := fun _ => rfl
theorem F.setf : F.Statement (.setf) := fun _ => rfl
theorem F.seti : F.Statement (.seti) := fun _ => rfl
theorem F.setd : F.Statement (.setd) := fun _ => rfl
theorem F.setl : F.Statement (.setl) := fun _ => rfl
theorem F.illegalFloat (code : Word) : F.Statement (.illegalFloat code) := by
  intro h
  simp only [Instr.wf, illegalFloatCode, Bool.or_eq_true, Bool.and_eq_true, decide_eq_true_eq] at h
  simp only [inRows, opcodeRows, encode, List.any_cons, List.any_nil, Bool.or_eq_true, beq_iff_eq, Bool.or_false]
  have cases : code.toNat / 2 ^ 0 = 0o170003 ∨ code.toNat / 2 ^ 2 = 0o36001 ∨ code.toNat / 2 ^ 0 = 0o170010 ∨
      code.toNat / 2 ^ 0 = 0o170013 ∨ code.toNat / 2 ^ 2 = 0o36003 ∨ code.toNat / 2 ^ 4 = 0o7401 ∨
      code.toNat / 2 ^ 5 = 0o3601 := by omega
  rcases cases with h | h | h | h | h | h | h
  · exact .inl (and_eq_of_div 0 0o170003 (by decide) (by decide) (by decide) h)
  · exact .inr (.inl (and_eq_of_div 2 0o36001 (by decide) (by decide) (by decide) h))
  · exact .inr (.inr (.inl (and_eq_of_div 0 0o170010 (by decide) (by decide) (by decide) h)))
  · exact .inr (.inr (.inr (.inl (and_eq_of_div 0 0o170013 (by decide) (by decide) (by decide) h))))
  · exact .inr (.inr (.inr (.inr (.inl (and_eq_of_div 2 0o36003 (by decide) (by decide) (by decide) h)))))
  · exact .inr (.inr (.inr (.inr (.inr (.inl (and_eq_of_div 4 0o7401 (by decide) (by decide) (by decide) h))))))
  · exact .inr (.inr (.inr (.inr (.inr (.inr (and_eq_of_div 5 0o3601 (by decide) (by decide) (by decide) h))))))
theorem F.ldfps (src : Operand) : F.Statement (.ldfps src) :=
  fun _ => inRows_of_eq (floatSingle_row (by decide) (by decide))
theorem F.stfps (dst : Operand) : F.Statement (.stfps dst) :=
  fun _ => inRows_of_eq (floatSingle_row (by decide) (by decide))
theorem F.stst (dst : Operand) : F.Statement (.stst dst) :=
  fun _ => inRows_of_eq (floatSingle_row (by decide) (by decide))
theorem F.clrf (fdst : Operand) : F.Statement (.clrf fdst) :=
  fun _ => inRows_of_eq (floatSingle_row (by decide) (by decide))
theorem F.clrd (fdst : Operand) : F.Statement (.clrd fdst) :=
  fun _ => inRows_of_eq (floatSingle_row (by decide) (by decide))
theorem F.tstf (fdst : Operand) : F.Statement (.tstf fdst) :=
  fun _ => inRows_of_eq (floatSingle_row (by decide) (by decide))
theorem F.tstd (fdst : Operand) : F.Statement (.tstd fdst) :=
  fun _ => inRows_of_eq (floatSingle_row (by decide) (by decide))
theorem F.absf (fdst : Operand) : F.Statement (.absf fdst) :=
  fun _ => inRows_of_eq (floatSingle_row (by decide) (by decide))
theorem F.absd (fdst : Operand) : F.Statement (.absd fdst) :=
  fun _ => inRows_of_eq (floatSingle_row (by decide) (by decide))
theorem F.negf (fdst : Operand) : F.Statement (.negf fdst) :=
  fun _ => inRows_of_eq (floatSingle_row (by decide) (by decide))
theorem F.negd (fdst : Operand) : F.Statement (.negd fdst) :=
  fun _ => inRows_of_eq (floatSingle_row (by decide) (by decide))
theorem F.mulf (ac : AcField) (fsrc : Operand) : F.Statement (.mulf ac fsrc) :=
  fun _ => inRows_of_eq (float_row (by decide) (by decide))
theorem F.muld (ac : AcField) (fsrc : Operand) : F.Statement (.muld ac fsrc) :=
  fun _ => inRows_of_eq (float_row (by decide) (by decide))
theorem F.modf (ac : AcField) (fsrc : Operand) : F.Statement (.modf ac fsrc) :=
  fun _ => inRows_of_eq (float_row (by decide) (by decide))
theorem F.modd (ac : AcField) (fsrc : Operand) : F.Statement (.modd ac fsrc) :=
  fun _ => inRows_of_eq (float_row (by decide) (by decide))
theorem F.addf (ac : AcField) (fsrc : Operand) : F.Statement (.addf ac fsrc) :=
  fun _ => inRows_of_eq (float_row (by decide) (by decide))
theorem F.addd (ac : AcField) (fsrc : Operand) : F.Statement (.addd ac fsrc) :=
  fun _ => inRows_of_eq (float_row (by decide) (by decide))
theorem F.ldf (ac : AcField) (fsrc : Operand) : F.Statement (.ldf ac fsrc) :=
  fun _ => inRows_of_eq (float_row (by decide) (by decide))
theorem F.ldd (ac : AcField) (fsrc : Operand) : F.Statement (.ldd ac fsrc) :=
  fun _ => inRows_of_eq (float_row (by decide) (by decide))
theorem F.subf (ac : AcField) (fsrc : Operand) : F.Statement (.subf ac fsrc) :=
  fun _ => inRows_of_eq (float_row (by decide) (by decide))
theorem F.subd (ac : AcField) (fsrc : Operand) : F.Statement (.subd ac fsrc) :=
  fun _ => inRows_of_eq (float_row (by decide) (by decide))
theorem F.cmpf (ac : AcField) (fsrc : Operand) : F.Statement (.cmpf ac fsrc) :=
  fun _ => inRows_of_eq (float_row (by decide) (by decide))
theorem F.cmpd (ac : AcField) (fsrc : Operand) : F.Statement (.cmpd ac fsrc) :=
  fun _ => inRows_of_eq (float_row (by decide) (by decide))
theorem F.stf (ac : AcField) (fdst : Operand) : F.Statement (.stf ac fdst) :=
  fun _ => inRows_of_eq (float_row (by decide) (by decide))
theorem F.std (ac : AcField) (fdst : Operand) : F.Statement (.std ac fdst) :=
  fun _ => inRows_of_eq (float_row (by decide) (by decide))
theorem F.divf (ac : AcField) (fsrc : Operand) : F.Statement (.divf ac fsrc) :=
  fun _ => inRows_of_eq (float_row (by decide) (by decide))
theorem F.divd (ac : AcField) (fsrc : Operand) : F.Statement (.divd ac fsrc) :=
  fun _ => inRows_of_eq (float_row (by decide) (by decide))
theorem F.stexp (ac : AcField) (dst : Operand) : F.Statement (.stexp ac dst) :=
  fun _ => inRows_of_eq (float_row (by decide) (by decide))
theorem F.stcfi (ac : AcField) (dst : Operand) : F.Statement (.stcfi ac dst) :=
  fun _ => inRows_of_eq (float_row (by decide) (by decide))
theorem F.stcfl (ac : AcField) (dst : Operand) : F.Statement (.stcfl ac dst) :=
  fun _ => inRows_of_eq (float_row (by decide) (by decide))
theorem F.stcdi (ac : AcField) (dst : Operand) : F.Statement (.stcdi ac dst) :=
  fun _ => inRows_of_eq (float_row (by decide) (by decide))
theorem F.stcdl (ac : AcField) (dst : Operand) : F.Statement (.stcdl ac dst) :=
  fun _ => inRows_of_eq (float_row (by decide) (by decide))
theorem F.stcfd (ac : AcField) (fdst : Operand) : F.Statement (.stcfd ac fdst) :=
  fun _ => inRows_of_eq (float_row (by decide) (by decide))
theorem F.stcdf (ac : AcField) (fdst : Operand) : F.Statement (.stcdf ac fdst) :=
  fun _ => inRows_of_eq (float_row (by decide) (by decide))
theorem F.ldexp (ac : AcField) (src : Operand) : F.Statement (.ldexp ac src) :=
  fun _ => inRows_of_eq (float_row (by decide) (by decide))
theorem F.ldcif (ac : AcField) (src : Operand) : F.Statement (.ldcif ac src) :=
  fun _ => inRows_of_eq (float_row (by decide) (by decide))
theorem F.ldclf (ac : AcField) (src : Operand) : F.Statement (.ldclf ac src) :=
  fun _ => inRows_of_eq (float_row (by decide) (by decide))
theorem F.ldcid (ac : AcField) (src : Operand) : F.Statement (.ldcid ac src) :=
  fun _ => inRows_of_eq (float_row (by decide) (by decide))
theorem F.ldcld (ac : AcField) (src : Operand) : F.Statement (.ldcld ac src) :=
  fun _ => inRows_of_eq (float_row (by decide) (by decide))
theorem F.ldcdf (ac : AcField) (fsrc : Operand) : F.Statement (.ldcdf ac fsrc) :=
  fun _ => inRows_of_eq (float_row (by decide) (by decide))
theorem F.ldcfd (ac : AcField) (fsrc : Operand) : F.Statement (.ldcfd ac fsrc) :=
  fun _ => inRows_of_eq (float_row (by decide) (by decide))

end Sys2Proof.Laws
end

