-- ==== Sys2Proof/Tests/Slice0.lean ====
section
/-! SUPPORT. Tests: what the checks of a term refuse, words written from the encodings, single steps with results from the
spec's examples, and for every statement with hypotheses a state that meets them. -/

namespace Sys2Proof.Tests

open Sys2Proof.Machine

/-! ## Ill-formed terms (WellFormed) -/

theorem test_wf_reserved : Instr.wf (.reserved 0o005203#16) = false ∧ Instr.wf (.reserved 0o000010#16) = true := by decide
theorem test_wf_illegalFloat :
    Instr.wf (.illegalFloat 0o170001#16) = false ∧ Instr.wf (.illegalFloat 0o170003#16) = true := by decide
theorem test_wf_ccop : Instr.wf (.ccop true 15#4) = false ∧ Instr.wf (.ccop true 0#4) = true := by decide
theorem test_wf_bhis : Instr.wf (.bhis 0#8) = false := by decide
theorem test_wf_blo : Instr.wf (.blo 0#8) = false := by decide
theorem test_fits_addf : Instr.fits true false (.addf .ac0 ⟨.register, .r1⟩) = false := by decide
theorem test_fits_ldcld : Instr.fits true false (.ldcld .ac0 ⟨.register, .r1⟩) = false := by decide

/-! ## Decoding: the words are written from 30_encoding R203 to R220, 44 R480 and 45 R510 -/

/-- `@-(R2)`, the field `0o52`. -/
abbrev d : Operand := ⟨.autoDecDeferred, .r2⟩

/-- `(R3)+`, the field `0o23`. -/
abbrev q : Operand := ⟨.autoInc, .r3⟩

theorem test_decode_operate : ∀ p ∈ [(0o000000#16, Instr.halt), (0o000001#16, .wait), (0o000002#16, .rti),
    (0o000003#16, .bpt), (0o000004#16, .iot), (0o000005#16, .reset), (0o000006#16, .rtt), (0o000007#16, .mfpt),
    (0o000010#16, .reserved 0o000010#16), (0o107777#16, .reserved 0o107777#16)], decode false false p.1 = p.2 := by decide

theorem test_decode_codes : ∀ p ∈ [(0o000240#16, Instr.nop), (0o000241#16, .clc), (0o000242#16, .clv), (0o000244#16, .clz),
    (0o000250#16, .cln), (0o000257#16, .ccc), (0o000261#16, .sec), (0o000262#16, .sev), (0o000264#16, .sez),
    (0o000270#16, .sen), (0o000277#16, .scc), (0o000243#16, .ccop false 3#4), (0o000260#16, .ccop true 0#4)],
    decode false false p.1 = p.2 := by decide

theorem test_decode_control : ∀ p ∈ [(0o000152#16, Instr.jmp d), (0o004452#16, .jsr .r4 d), (0o000205#16, .rts .r5),
    (0o000237#16, .spl 7#3), (0o006477#16, .mark 0o77#6), (0o077501#16, .sob .r5 1#6), (0o104377#16, .emt 0o377#8),
    (0o104400#16, .trap 0#8)], decode false false p.1 = p.2 := by decide

theorem test_decode_branch : ∀ p ∈ [(0o000777#16, Instr.br 0o377#8), (0o001375#16, .bne 0o375#8), (0o001401#16, .beq 1#8),
    (0o002001#16, .bge 1#8), (0o002401#16, .blt 1#8), (0o003001#16, .bgt 1#8), (0o003401#16, .ble 1#8),
    (0o100001#16, .bpl 1#8), (0o100401#16, .bmi 1#8), (0o101001#16, .bhi 1#8), (0o101401#16, .blos 1#8),
    (0o102001#16, .bvc 1#8), (0o102401#16, .bvs 1#8), (0o103001#16, .bcc 1#8), (0o103401#16, .bcs 1#8)],
    decode false false p.1 = p.2 := by decide

/-- BHIS and BLO are second names of BCC and BCS: their words encode alike and decode to these (43 R409, R410). -/
theorem test_encode_aliases : encode (.bhis 1#8) = 0o103001#16 ∧ encode (.blo 1#8) = 0o103401#16 := by decide

theorem test_decode_single : ∀ p ∈ [(0o000352#16, Instr.swab d), (0o005052#16, .clr d), (0o005152#16, .com d),
    (0o005252#16, .inc d), (0o005352#16, .dec d), (0o005452#16, .neg d), (0o005552#16, .adc d), (0o005652#16, .sbc d),
    (0o005752#16, .tst d), (0o006052#16, .ror d), (0o006152#16, .rol d), (0o006252#16, .asr d), (0o006352#16, .asl d),
    (0o006552#16, .mfpi d), (0o006652#16, .mtpi d), (0o006752#16, .sxt d), (0o007052#16, .csm d), (0o007252#16, .tstset d),
    (0o007352#16, .wrtlck d)], decode false false p.1 = p.2 := by decide

theorem test_decode_single_byte : ∀ p ∈ [(0o105052#16, Instr.clrb d), (0o105152#16, .comb d), (0o105252#16, .incb d),
    (0o105352#16, .decb d), (0o105452#16, .negb d), (0o105552#16, .adcb d), (0o105652#16, .sbcb d), (0o105752#16, .tstb d),
    (0o106052#16, .rorb d), (0o106152#16, .rolb d), (0o106252#16, .asrb d), (0o106352#16, .aslb d), (0o106452#16, .mtps d),
    (0o106552#16, .mfpd d), (0o106652#16, .mtpd d), (0o106752#16, .mfps d)], decode false false p.1 = p.2 := by decide

theorem test_decode_double : ∀ p ∈ [(0o012352#16, Instr.mov q d), (0o022352#16, .cmp q d), (0o032352#16, .bit q d),
    (0o042352#16, .bic q d), (0o052352#16, .bis q d), (0o062352#16, .add q d), (0o112352#16, .movb q d),
    (0o122352#16, .cmpb q d), (0o132352#16, .bitb q d), (0o142352#16, .bicb q d), (0o152352#16, .bisb q d),
    (0o162352#16, .sub q d), (0o070452#16, .mul .r4 d), (0o071452#16, .div .r4 d), (0o072452#16, .ash .r4 d),
    (0o073452#16, .ashc .r4 d), (0o074452#16, .xor .r4 d)], decode false false p.1 = p.2 := by decide

theorem test_decode_float_control : ∀ p ∈ [(0o170000#16, Instr.cfcc), (0o170001#16, .setf), (0o170002#16, .seti),
    (0o170011#16, .setd), (0o170012#16, .setl), (0o170003#16, .illegalFloat 0o170003#16), (0o170152#16, .ldfps d),
    (0o170252#16, .stfps d), (0o170352#16, .stst d), (0o175252#16, .stexp .ac2 d), (0o176652#16, .ldexp .ac2 d)],
    decode false false p.1 = p.2 := by decide

theorem test_decode_float_single : ∀ p ∈ [(0o170452#16, Instr.clrf d), (0o170552#16, .tstf d), (0o170652#16, .absf d),
    (0o170752#16, .negf d), (0o171252#16, .mulf .ac2 d), (0o171652#16, .modf .ac2 d), (0o172252#16, .addf .ac2 d),
    (0o172652#16, .ldf .ac2 d), (0o173252#16, .subf .ac2 d), (0o173652#16, .cmpf .ac2 d), (0o174252#16, .stf .ac2 d),
    (0o174652#16, .divf .ac2 d), (0o175652#16, .stcfi .ac2 d), (0o176252#16, .stcfd .ac2 d), (0o177252#16, .ldcif .ac2 d),
    (0o177652#16, .ldcdf .ac2 d)], decode false false p.1 = p.2 := by decide

theorem test_decode_float_double : ∀ p ∈ [(0o170452#16, Instr.clrd d), (0o170552#16, .tstd d), (0o170652#16, .absd d),
    (0o170752#16, .negd d), (0o171252#16, .muld .ac2 d), (0o171652#16, .modd .ac2 d), (0o172252#16, .addd .ac2 d),
    (0o172652#16, .ldd .ac2 d), (0o173252#16, .subd .ac2 d), (0o173652#16, .cmpd .ac2 d), (0o174252#16, .std .ac2 d),
    (0o174652#16, .divd .ac2 d), (0o175652#16, .stcdi .ac2 d), (0o176252#16, .stcdf .ac2 d), (0o177252#16, .ldcid .ac2 d),
    (0o177652#16, .ldcfd .ac2 d)], decode true false p.1 = p.2 := by decide

theorem test_decode_float_long : decode false true 0o175652#16 = .stcfl .ac2 d ∧ decode true true 0o175652#16 = .stcdl .ac2 d ∧
    decode false true 0o177252#16 = .ldclf .ac2 d ∧ decode true true 0o177252#16 = .ldcld .ac2 d := by decide

/-! ## Single steps, with results from the spec's examples -/

/-- A machine in the service state at `0o1000`: R0 to R3, every stack pointer, the PS, and some words of storage. -/
def small (r0 r1 r2 r3 sp ps : Word) (ws : List (Nat × Word)) : State :=
  { State.reset with
    phase := .service, ps := ps
    regs := { gpr := #v[r0, r1, r2, r3, 0#16, 0#16, 0#16, 0#16, 0#16, 0#16, 0#16, 0#16]
              ksp := sp, ssp := sp, usp := sp, pc := 0o1000#16 }
    mem := ws.foldl (fun m p => m.writeWord p.1 p.2) []
    flow := { Flow.clear with prefetchFault := false } }

/-- What an instruction leaves, as far as `f` looks. -/
def after {α : Type} (i : Instr) (s : State) (f : State → α) : Option α :=
  match exec i s with
  | .next t => some (f t)
  | .fault _ => none
  | .refused _ => none

/-- A register and N, Z, V, C. -/
def regCc (r : Reg) (t : State) : Word × BitVec 4 := (t.reg r, t.ps.extractLsb' 0 4)

/-- Two registers and N, Z, V, C. -/
def pairCc (r r' : Reg) (t : State) : Word × Word × BitVec 4 := (t.reg r, t.reg r', t.ps.extractLsb' 0 4)

/-- Registers R0 and R1 as given, the codes as given, nothing else. -/
def two (r0 r1 : Word) (codes : Word) : State := small r0 r1 0#16 0#16 0o1000#16 codes []

/-- Register direct. -/
abbrev rr (r : Reg) : Operand := ⟨.register, r⟩

/-! 41_single_operand: the examples of R301 to R334 and 95 A2, B2 -/

/-- Only bits 7:0 are cleared; R302's example prints `0o123000`, which clears bit 8 too (log entry 30). -/
theorem test_clrb : after (.clrb (rr .r0)) (two 0o123456#16 0#16 0#16) (regCc .r0) = some (0o123400#16, 4#4) := by decide
theorem test_com : after (.com (rr .r0)) (two 0o013333#16 0#16 0#16) (regCc .r0) = some (0o164444#16, 9#4) := by decide
theorem test_inc : after (.inc (rr .r0)) (two 0o077777#16 0#16 1#16) (regCc .r0) = some (0o100000#16, 11#4) := by decide
theorem test_decb : after (.decb (rr .r0)) (two 0o000400#16 0#16 0#16) (regCc .r0) = some (0o000777#16, 8#4) := by decide
theorem test_neg : after (.neg (rr .r0)) (two 0o000010#16 0#16 0#16) (regCc .r0) = some (0o177770#16, 9#4) := by decide
theorem test_tst : after (.tst (rr .r1)) (two 0#16 0o012340#16 3#16) (regCc .r1) = some (0o012340#16, 0#4) := by decide
theorem test_asr : after (.asr (rr .r0)) (two 0o100003#16 0#16 0#16) (regCc .r0) = some (0o140001#16, 9#4) := by decide
theorem test_asl : after (.asl (rr .r1)) (two 0#16 0o040001#16 0#16) (regCc .r1) = some (0o100002#16, 10#4) := by decide
theorem test_ror : after (.ror (rr .r0)) (two 1#16 0#16 0#16) (regCc .r0) = some (0#16, 7#4) := by decide
theorem test_rorb : after (.rorb (rr .r0)) (two 2#16 0#16 1#16) (regCc .r0) = some (0o201#16, 10#4) := by decide
theorem test_rol : after (.rol (rr .r0)) (two 0o100000#16 0#16 1#16) (regCc .r0) = some (1#16, 3#4) := by decide
theorem test_swab : after (.swab (rr .r1)) (two 0#16 0o077777#16 15#16) (regCc .r1) = some (0o177577#16, 0#4) := by decide
theorem test_adc : after (.adc (rr .r0)) (two 0o177777#16 0#16 1#16) (regCc .r0) = some (0#16, 5#4) := by decide
theorem test_sbc : after (.sbc (rr .r1)) (two 0#16 0#16 1#16) (regCc .r1) = some (0o177777#16, 9#4) := by decide
theorem test_sxt : after (.sxt (rr .r0)) (two 0o012345#16 0#16 8#16) (regCc .r0) = some (0o177777#16, 8#4) := by decide
theorem test_mfps : after (.mfps (rr .r0)) (two 0#16 0#16 0o14#16) (fun t => (t.reg .r0, t.ps)) = some (0o14#16, 0#16) := by
  decide
theorem test_mtps : after (.mtps (rr .r1)) (two 0#16 0o777#16 0#16) (fun t => t.ps) = some 0o357#16 := by decide

/-! The first instruction after reset, placed from outside (log entry 6) -/

/-- What one step leaves, as far as `f` looks. -/
def stepped {α : Type} (s : State) (f : State → α) : Option α :=
  match step s with
  | .next t => some (f t)
  | .fault _ => none
  | .refused _ => none

theorem test_first_instruction : stepped (State.reset.withFetchWord 16 0o005203) (fun t => (t.reg .r3, t.regs.pc)) =
    some (1#16, 2#16) := by decide
theorem test_first_with_operands : stepped (State.reset.withFetchWord 48 (0o012737 + 0o17 * 65536 + 0o2000 * 4294967296))
    (fun t => (t.word 0o2000#16, t.regs.pc)) = some (0o17#16, 6#16) := by decide
theorem test_decodeTableWord : decodeTableWord 16 0o005203 = some (.inc (rr .r3)) := by decide

/-! 40_addressing_modes: 95 B1 -/

theorem test_incb_autodec : after (.incb ⟨.autoDec, .r1⟩) (small 0#16 0o2000#16 0#16 0#16 0#16 0#16 [(0o1776, 0o3000#16)])
    (fun t => (t.word 0o1776#16, t.reg .r1, t.mmu.mmr1)) = some (0o3400#16, 0o1777#16, 0o371#16) := by decide
theorem test_inc_index_deferred : after (.inc ⟨.indexDeferred, .r1⟩)
    (small 0#16 0o2000#16 0#16 0#16 0#16 0#16 [(0o1000, 0o200#16), (0o2200, 0o3000#16), (0o3000, 5#16)])
    (fun t => t.word 0o3000#16) = some 6#16 := by decide
theorem test_mov_own_register : after (.mov (rr .r0) ⟨.autoInc, .r0⟩) (two 0o1000#16 0#16 0#16)
    (fun t => (t.word 0o1000#16, t.reg .r0)) = some (0o1002#16, 0o1002#16) := by decide
theorem test_movb_push : after (.movb (rr .r0) ⟨.autoDec, .sp⟩) (two 0o377#16 0#16 0#16)
    (fun t => (t.word 0o776#16, t.reg .sp)) = some (0o377#16, 0o776#16) := by decide
theorem test_odd_operand : after (.tst ⟨.autoInc, .r1⟩) (two 0#16 0o2001#16 0#16)
    (fun t => (t.reg .r1, t.sys.cpuerr, t.mmu.mmr1)) = some (0o2003#16, 0o100#16, 0o21#16) := by decide

/-! 42_double_operand: the examples of R352 to R367 -/

theorem test_movb : after (.movb (rr .r1) (rr .r0)) (two 0#16 0o377#16 0#16) (regCc .r0) = some (0o177777#16, 8#4) := by decide
theorem test_cmp : after (.cmp (rr .r0) (rr .r1)) (two 5#16 7#16 0#16) (regCc .r0) = some (5#16, 9#4) := by decide
theorem test_cmpb : after (.cmpb (rr .r0) (rr .r1)) (two 0o200#16 1#16 0#16) (regCc .r0) = some (0o200#16, 2#4) := by decide
theorem test_add : after (.add (rr .r0) (rr .r1)) (two 0o077777#16 0o077777#16 0#16) (regCc .r1) =
    some (0o177776#16, 10#4) := by decide
theorem test_sub : after (.sub (rr .r0) (rr .r1)) (two 0o011111#16 0o012345#16 15#16) (regCc .r1) =
    some (0o001234#16, 0#4) := by decide
theorem test_mul : after (.mul .r0 (rr .r2)) (small 0o040000#16 0#16 4#16 0#16 0#16 0#16 []) (pairCc .r0 .r1) =
    some (1#16, 0#16, 1#4) := by decide
theorem test_div : after (.div .r0 (rr .r2)) (small 0o177777#16 0o177751#16 5#16 0#16 0#16 0#16 []) (pairCc .r0 .r1) =
    some (0o177774#16, 0o177775#16, 8#4) := by decide
theorem test_div_zero : after (.div .r0 (rr .r2)) (two 5#16 6#16 0#16)
    (fun t => (t.regs.gpr.get 0, t.regs.gpr.get 1)) = some (5#16, 6#16) := by decide
theorem test_ash : after (.ash .r1 (rr .r0)) (two 0o177777#16 0o100001#16 0#16) (regCc .r1) =
    some (0o140000#16, 9#4) := by decide
theorem test_ashc_odd : after (.ashc .r1 (rr .r0)) (two 0o177774#16 0o17#16 0#16) (fun t => t.reg .r1) =
    some 0o170000#16 := by decide
theorem test_bit : after (.bit (rr .r0) (rr .r1)) (two 0o30#16 0o30#16 15#16) (regCc .r1) = some (0o30#16, 1#4) := by decide
theorem test_bic : after (.bic (rr .r0) (rr .r1)) (two 0o001234#16 0o001111#16 15#16) (regCc .r1) =
    some (0o000101#16, 1#4) := by decide
theorem test_bis : after (.bis (rr .r0) (rr .r1)) (two 0o001234#16 0o001111#16 0#16) (regCc .r1) =
    some (0o001335#16, 0#4) := by decide
theorem test_xor : after (.xor .r0 (rr .r1)) (two 0o001234#16 0o001111#16 15#16) (regCc .r1) =
    some (0o000325#16, 1#4) := by decide

/-! 43_program_control, 44_miscellaneous, 60_exceptions -/

theorem test_branch_back : after (.br 0o375#8) ((two 0#16 0#16 0#16).setPc 0o502#16) (fun t => t.regs.pc) =
    some 0o474#16 := by decide
theorem test_sob : after (.sob .r0 1#6) ((two 3#16 0#16 0#16).setPc 0o1002#16) (fun t => (t.reg .r0, t.regs.pc)) =
    some (2#16, 0o1000#16) := by decide
theorem test_jsr : after (.jsr .pc ⟨.autoIncDeferred, .pc⟩)
    (small 0#16 0#16 0#16 0#16 0o700#16 0o140000#16 [(0o1000, 0o2000#16)])
    (fun t => (t.reg .sp, t.word 0o676#16, t.regs.pc)) = some (0o676#16, 0o1002#16, 0o2000#16) := by decide
theorem test_rti : after .rti (small 0#16 0#16 0#16 0#16 0o770#16 0#16 [(0o770, 0o1000#16), (0o772, 0o170000#16)])
    (fun t => (t.regs.pc, t.ps, t.regs.ksp)) = some (0o1000#16, 0o170000#16, 0o774#16) := by decide
theorem test_csm : after (.csm ⟨.autoInc, .pc⟩)
    { small 0#16 0#16 0#16 0#16 0o1000#16 0o140005#16 [(0o10, 0o5000#16), (0o1000, 0o123#16)] with
      mmu := { State.reset.mmu with mmr3 := 0o10#16 } }
    (fun t => (t.ps, t.regs.ssp, t.word 0o776#16, t.word 0o774#16, t.word 0o772#16, t.regs.pc, t.regs.usp)) =
    some (0o070005#16, 0o772#16, 0o140000#16, 0o1002#16, 0o123#16, 0o5000#16, 0o1000#16) := by decide
theorem test_spl : after (.spl 7#3) (two 0#16 0#16 4#16) (fun t => t.ps) = some 0o344#16 := by decide
theorem test_mfpi : after (.mfpi (rr .sp)) { two 0#16 0#16 0o030000#16 with
    regs := { State.reset.regs with ksp := 0o1000#16, usp := 0o123456#16 } }
    (fun t => (t.regs.ksp, t.word 0o776#16, t.ps)) = some (0o776#16, 0o123456#16, 0o030010#16) := by decide
theorem test_ccop : after (.ccop false 3#4) (two 0#16 0#16 10#16) (fun t => t.ps) = some 8#16 := by decide
theorem test_user_halt : after .halt (small 0#16 0#16 0#16 0#16 0o1000#16 0o140000#16 [(4, 0o2000#16), (6, 0#16)])
    (fun t => (t.regs.pc, t.ps, t.sys.cpuerr, t.word 0o776#16, t.word 0o774#16)) =
    some (0o2000#16, 0o030000#16, 0o200#16, 0o140000#16, 0o1000#16) := by decide

/-! The environment: bus answers, DMA, the serial line, the end of a wait (20_memory R112; 60 R633, R637, R673; 61 R681 to R685,
R699; 70 R761) -/

theorem test_bus_abort : after (.tst ⟨.deferred, .r1⟩) { two 0#16 0o2000#16 0#16 with answers := [⟨true, false, none, []⟩] }
    (fun t => (t.sys.cpuerr, t.answers)) = some (0o40#16, []) := by decide
theorem test_bus_parity_abort : after (.tst ⟨.deferred, .r1⟩)
    { small 0#16 0o2000#16 0#16 0#16 0o1000#16 0#16 [(0o114, 0o4000#16)] with answers := [⟨true, true, none, []⟩] }
    (fun t => (t.sys.cpuerr, t.regs.pc)) = some (0#16, 0o4000#16) := by decide
theorem test_bus_parity : after (.tst ⟨.deferred, .r1⟩)
    { small 0#16 0o2000#16 0#16 0#16 0o1000#16 0#16 [(0o2000, 0o100000#16)] with answers := [⟨false, true, none, []⟩] }
    (fun t => (t.ps, t.flow.pendParity)) = some (8#16, true) := by decide
theorem test_device_word : after (.mov ⟨.deferred, .r1⟩ (rr .r0)) { two 0#16 0o170000#16 0#16 with
    answers := [⟨false, false, some 7#16, []⟩] } (fun t => t.reg .r0) = some 7#16 := by decide
theorem test_rbuf_clears_done : after (.tst ⟨.deferred, .r1⟩) { two 0#16 0o177562#16 0#16 with
    io := { State.reset.io with rx := some 0o101#8 } } (fun t => t.io.rx) = some none := by decide
theorem test_xbuf_clears_done : after (.movb (rr .r0) ⟨.deferred, .r1⟩) (two 0o101#16 0o177566#16 0#16)
    (fun t => (t.io.tx, t.io.txReady)) = some ([0o101#8], false) := by decide
theorem test_minus_pc_discards : after (.tst ⟨.autoDec, .pc⟩) (two 0#16 0#16 0#16)
    (fun t => (t.regs.pc, t.flow.prefetchFault)) = some (0o776#16, true) := by decide
theorem test_wait_past_aborted_acknowledge : (State.waitStep { two 0#16 0#16 0#16 with
    phase := .waiting, lines := { Lines.quiet with irq5 := .asserted none, irq4 := .asserted (some 0o60#16) } }).phase = .service ∧
    (State.waitStep { two 0#16 0#16 0#16 with
      phase := .waiting, lines := { Lines.quiet with irq5 := .asserted none, halt := true } }).phase = .console .entering := by
  decide
theorem test_dma : (State.dma (two 0#16 0#16 0#16) [(0o2000#22, 5#16)]).word 0o2000#16 = 5#16 ∧
    (State.dma (two 0#16 0#16 0#16) [(0o1000#22, 0o000240#16)]).flow.stale = some 0#16 := by decide
/-- A bus cycle before which another master stores a word at `0o2000`. -/
abbrev disturbed (w : Word) : BusAnswer := { BusAnswer.plain with dma := [(0o2000#22, w)] }

theorem test_dma_inside_modify : after (.inc ⟨.deferred, .r1⟩) { two 0#16 0o2000#16 0#16 with
    answers := [disturbed 5#16, disturbed 0o77#16] } (fun t => t.word 0o2000#16) = some 6#16 := by decide
theorem test_dma_held_off : after (.tstset ⟨.deferred, .r1⟩) { two 0#16 0o2000#16 0#16 with
    answers := [disturbed 4#16, disturbed 0o77#16] } (fun t => (t.reg .r0, t.word 0o2000#16)) = some (4#16, 0o77#16) := by decide
theorem test_power_up_not_stale : State.nextWordAddr State.reset = some 0#22 ∧
    (State.dma State.reset [(0#22, 5#16)]).flow.stale = none ∧
    (State.awaitPok { State.reset with flow := { Flow.clear with stale := some 1#16, prefetchFault := false } }).flow.stale =
      none := by decide
theorem test_failed_fetch_not_stale : (match fetchInstruction
      { two 0#16 0#16 0#16 with answers := [⟨true, false, none, []⟩], flow := { Flow.clear with stale := some 1#16 } } with
    | .ok _ _ => none
    | .error _ t => some (t.regs.pc, t.flow.stale)) = some (0o1002#16, none) := by decide
theorem test_dump_wraps : (match dumpBytes 2 0o177777#16 { two 0#16 0#16 0#16 with mem := [(0, 1#8), (0o177777, 2#8)] } with
    | .ok bs _ => bs
    | .error _ _ => []) = [2#8, 1#8] := by decide

/-! 46_floating_point_instructions: the examples of R541 to R564 -/

/-- FPS and accumulators 0 and 1 as given. -/
def float (fps : Word) (a0 a1 : BitVec 64) : State :=
  { two 0#16 0#16 0#16 with
    fpu := { State.reset.fpu with
      fps := fps
      ac := #v[⟨a0.extractLsb' 32 32, a0.extractLsb' 0 32⟩, ⟨a1.extractLsb' 32 32, a1.extractLsb' 0 32⟩, ⟨0#32, 0#32⟩,
        ⟨0#32, 0#32⟩, ⟨0#32, 0#32⟩, ⟨0#32, 0#32⟩] } }

/-- The D pattern whose first word is given and whose others are 0. -/
abbrev top (w : Word) : BitVec 64 := w ++ 0#48

theorem test_cfcc : after .cfcc { float 0o10#16 0#64 0#64 with ps := 5#16 } (fun t => t.ps) = some 0o10#16 := by decide
theorem test_negf : after (.negf (rr .r1)) (float 0#16 0#64 (top 0o040400#16)) (fun t => (t.acc 1 .f, t.fpu.fps)) =
    some (top 0o140400#16, 0o10#16) := by decide
theorem test_subf : after (.subf .ac0 (rr .r1)) (float 0#16 (top 0o040200#16) (top 0o040400#16))
    (fun t => (t.acc 0 .f, t.fpu.fps)) = some (top 0o140200#16, 0o10#16) := by decide
theorem test_muld : after (.muld .ac0 (rr .r1)) (float 0o200#16 (top 0o040500#16) (top 0o040400#16))
    (fun t => (t.acc 0 .d, t.fpu.fps)) = some (top 0o040700#16, 0o200#16) := by decide
theorem test_divf_zero : after (.divf .ac0 (rr .r1)) (float 0#16 (top 0o040200#16) 0#64)
    (fun t => (t.acc 0 .f, t.fpu.fps, t.fpu.fec, t.flow.pendFp)) = some (top 0o040200#16, 0o100000#16, 4#4, true) := by decide
theorem test_stexp : after (.stexp .ac0 (rr .r2)) (float 0#16 (top 0o040600#16) 0#64) (regCc .r2) = some (3#16, 0#4) := by
  decide
theorem test_stst : after (.stst ⟨.autoDec, .r0⟩)
    { float 0o100000#16 0#64 0#64 with
      regs := { State.reset.regs with gpr := State.reset.regs.gpr.set 0 0o2000#16 }
      fpu := { State.reset.fpu with fec := 4#4, fea := 0o1000#16 } }
    (fun t => (t.reg .r0, t.word 0o1774#16, t.word 0o1776#16)) = some (0o1774#16, 4#16, 0o1000#16) := by decide

/-! ## A state for the hypotheses of every statement -/

/-- The conditions of plain storage, as one decidable fact. -/
theorem plain {s : State} {va : Word} (h : va.getLsbD 0 = false ∧ s.mmu.mmr0.getLsbD 0 = false ∧ va < 0o160000#16 ∧
    hasStorage s.plat (va.setWidth 22) = true ∧ va.setWidth 22 ∉ s.plat.parityAbortAt ∧
    va.setWidth 22 ∉ s.plat.parityErrorAt ∧ s.answers = []) : s.PlainAt va :=
  ⟨h.1, h.2.1, h.2.2.1, h.2.2.2.1, h.2.2.2.2.1, h.2.2.2.2.2.1, h.2.2.2.2.2.2⟩

/-- R1 at a pointer and R2 just past it, with an operand behind it. -/
abbrev pointers : State :=
  small 0o2000#16 0o2000#16 0o2002#16 3#16 0o1000#16 0#16
    [(0o1000, 0o200#16), (0o2000, 0o3000#16), (0o2002, 0o177777#16), (0o3000, 5#16)]

/-- The same when the bus cycle after the first `n` aborts. -/
abbrev failing (n : Nat) : State := { pointers with answers := List.replicate n .plain ++ [⟨true, false, none, []⟩] }

theorem wit_DecodeInvertsEncode : Instr.wf (.mulf .ac3 (rr .r5)) = true ∧ Instr.fits false true (.mulf .ac3 (rr .r5)) = true := by
  decide

theorem wit_StepKeepsInv : pointers.Inv ∧ ∃ t, step pointers = .next t :=
  ⟨⟨rfl, by decide, rfl, rfl, rfl, by decide, rfl, rfl, rfl⟩, _, rfl⟩

theorem wit_InitClearsRegisters :
    (State.sampleInputs { pointers with lines := { Lines.quiet with init := true } }).lines.init = true := rfl

/-- The state in which the configuration is read, with a power-up mode and power good or not. -/
abbrev waitingForPower (mode : BitVec 2) (pok : Bool) : State :=
  { pointers with
    phase := .awaitPok
    plat := { Platform.initial with cfg := { Platform.initial.cfg with powerUpMode := mode, pok := pok } } }

theorem wit_PowerUpStarts :
    (State.reset.sampleInputs.lines.init = false ∧ State.reset.sampleInputs.phase = .powerUp) ∧
    (∀ mode : BitVec 2, ∀ pok : Bool, (waitingForPower mode pok).sampleInputs.phase = .awaitPok ∧
      (waitingForPower mode pok).plat.cfg.fpaPresent = false ∧ (waitingForPower mode pok).plat.cfg.pok = pok) ∧
    ((waitingForPower 0#2 true).sampleInputs.PlainAt 0o24#16 ∧ (waitingForPower 0#2 true).sampleInputs.PlainAt 0o26#16) ∧
    (waitingForPower 0#2 true).sampleInputs.Undisturbed :=
  ⟨⟨rfl, rfl⟩, fun _ _ => ⟨rfl, rfl, rfl⟩, ⟨plain (by decide), plain (by decide)⟩, nofun⟩

theorem wit_StepRunsInstruction :
    (pointers.sampleInputs.phase = .service ∧ pointers.sampleInputs.service = none) ∧
    (∃ w s1 s2, fetchInstruction pointers.sampleInputs.beginInstruction = .ok w s1 ∧ exec (decode s1.fd s1.fl w) s1 = .next s2) ∧
    (State.sampleInputs { pointers with phase := .proceed }).phase = .proceed ∧
    (∃ e s1, fetchInstruction ((pointers.setPc 0o1001#16).sampleInputs.beginInstruction) = .error (.raise e) s1) ∧
    (pointers.flow.prefetchFault = false ∧ pointers.PlainAt pointers.regs.pc) ∧ pointers.faultPrefetch.flow.prefetchFault = true :=
  ⟨⟨rfl, rfl⟩, ⟨_, _, _, rfl, rfl⟩, rfl, ⟨_, _, rfl⟩, ⟨rfl, plain (by decide)⟩, rfl⟩

/-- The next word stale. -/
abbrev stale : State := { pointers with flow := { pointers.flow with stale := some 1#16 } }

theorem wit_FetchFromPlainMemory : ((pointers.setPc 0o157776#16).PlainAt 0o157776#16 ∧ pointers.flow.stale = none) ∧
    (stale.PlainAt stale.regs.pc ∧ stale.flow.stale = some 1#16) ∧
    ∃ e t, fetchInstruction { stale with answers := [⟨true, false, none, []⟩] } = .error (.raise e) t :=
  ⟨⟨plain (by decide), rfl⟩, ⟨plain (by decide), rfl⟩, _, _, rfl⟩

theorem wit_RegistersAreBanked : Reg.r0 ≠ .sp ∧ Reg.r0 ≠ .pc ∧ pointers.ps.getLsbD 11 ≠ (0o004000#16 : Word).getLsbD 11 ∧
    pointers.ps.getLsbD 11 = (0o140000#16 : Word).getLsbD 11 ∧ (0o140000#16 : Word).extractLsb' 14 2 ≠ 2#2 ∧ user ≠ 2#2 := by
  decide

theorem wit_ExplicitPsWrite : pointers.mmu.mmr0.getLsbD 0 = false := rfl

theorem wit_PlainMemoryReadsBack : pointers.mem.wf = true ∧ pointers.PlainAt 0o157776#16 ∧ pointers.PlainAt 0#16 ∧
    (0o157777#16 : Word).getLsbD 0 = true := ⟨by decide, plain (by decide), plain (by decide), by decide⟩

theorem wit_StoreChangesItsBytesOnly : pointers.mem.wf = true ∧
    (∃ pa s1 b t, translate .d kernel 0o2001#16 .write pointers = .ok pa s1 ∧ s1.deviceAt pa = .storage ∧
      memWrite .d kernel .byte 0o2001#16 7#16 pointers = .ok b t) ∧
    (∃ pa s1 b t, translate .d kernel 0o2002#16 .write pointers = .ok pa s1 ∧ s1.deviceAt pa = .storage ∧
      memWrite .d kernel .word 0o2002#16 7#16 pointers = .ok b t) :=
  ⟨by decide, ⟨_, _, _, _, rfl, rfl, rfl⟩, _, _, _, _, rfl, rfl, rfl⟩

/-- Another master stores before the write, in the same word or where nothing is. -/
theorem wit_StoreChangesItsBytesOnly_disturbed : ∀ d ∈ [0o2000#22, 0o17777000#22], ∃ s, s = { pointers with
      answers := [{ BusAnswer.plain with dma := [(d, 5#16)] }] } ∧ s.mem.wf = true ∧
    (s.answers.headD .plain).dma = [(d, 5#16)] ∧ (s.deviceAt d = .storage ↔ d = 0o2000#22) ∧
    ∃ pa s1 b t, translate .d kernel 0o2000#16 .write s = .ok pa s1 ∧ s1.deviceAt pa = .storage ∧
      memWrite .d kernel .word 0o2000#16 7#16 s = .ok b t := by
  intro d h
  rcases List.mem_pair.mp h with rfl | rfl
  · exact ⟨_, rfl, by decide, rfl, by decide, _, _, _, _, rfl, rfl, rfl⟩
  · exact ⟨_, rfl, by decide, rfl, by decide, _, _, _, _, rfl, rfl, rfl⟩

theorem wit_SixteenBitMapping : pointers.mmu.mmr0.getLsbD 0 = false := rfl

/-- Relocation on, every page with the given PAR and PDR, and MMR3. -/
abbrev mapped (mmr0 mmr3 par pdr : Word) : State :=
  { pointers with mmu := { State.reset.mmu with
      mmr0 := mmr0, mmr3 := mmr3, par := Vector.replicate 48 par, pdr := Vector.replicate 48 pdr } }

theorem mapped_pdr (a b c v : Word) (i : Fin 48) : (mapped a b c v).mmu.pdr.get i = v := by
  show (Vector.replicate 48 v)[i.val] = v
  simp

/-- 22-bit mapping up to the last block, 18-bit mapping below and in its I/O page, each by a write. -/
theorem wit_RelocatedAddress : ∀ p ∈ [(0o20#16, 0o177400#16), (0#16, 0o7377#16), (0#16, 0o7577#16)],
    (mapped 1#16 p.1 p.2 0o77406#16).mmu.mmr0.getLsbD 0 = true ∧
    pageNonResident ((mapped 1#16 p.1 p.2 0o77406#16).mmu.pdr.get (pageSlot kernel .i 0o17777#16)) = false ∧
    pageLengthError ((mapped 1#16 p.1 p.2 0o77406#16).mmu.pdr.get (pageSlot kernel .i 0o17777#16)) 0o17777#16 = false ∧
    pageReadOnly ((mapped 1#16 p.1 p.2 0o77406#16).mmu.pdr.get (pageSlot kernel .i 0o17777#16)) .write = false := by
  intro p h
  refine ⟨show (1#16 : Word).getLsbD 0 = true by decide, ?_, ?_, ?_⟩ <;> rw [mapped_pdr] <;> decide

/-- PDRs for which a write to block 1 aborts: an absent page, one too short by one block, a downward one whose block lies
below it, a read-only one; and MMR0 not frozen and frozen. -/
theorem wit_MemoryManagementAborts :
    (∀ pdr ∈ [0o77400#16, 0o000006#16, 0o001016#16, 0o77402#16],
      (mapped 1#16 0#16 0#16 pdr).mmu.pdr.get (pageSlot kernel .i 0o100#16) = pdr ∧
      (decide (pdr.toNat / 2 % 4 = 0 ∨ pdr.toNat / 2 % 4 = 2) ||
        decide (if pdr.getLsbD 3 then (0o100#16 : Word).toNat / 64 % 128 < pdr.toNat / 256 % 128
          else pdr.toNat / 256 % 128 < (0o100#16 : Word).toNat / 64 % 128) ||
        decide (pdr.toNat / 2 % 4 = 1)) = true) ∧
    (mapped 1#16 0#16 0#16 0#16).mmu.mmr0.getLsbD 0 = true ∧ (mapped 1#16 0#16 0#16 0#16).mmu.mmr0.extractLsb' 13 3 = 0#3 ∧
    (mapped 0o20001#16 0#16 0#16 0#16).mmu.mmr0.extractLsb' 13 3 ≠ 0#3 := by
  refine ⟨fun pdr h => ⟨mapped_pdr _ _ _ _ _, ?_⟩, rfl, rfl, by decide⟩
  fin_cases h <;> decide

theorem wit_RegisterAddressing : Reg.r1 ≠ .sp ∧ Reg.r1 ≠ .pc ∧ pointers.PlainAt (pointers.reg .r1) ∧
    pointers.PlainAt (pointers.reg .r1 - 2#16) ∧ pointers.PlainAt pointers.regs.pc ∧
    pointers.PlainAt (pointers.reg .r1 + pointers.word pointers.regs.pc) :=
  ⟨by decide, by decide, plain (by decide), plain (by decide), plain (by decide), plain (by decide)⟩

theorem wit_PcAddressing : pointers.PlainAt pointers.regs.pc ∧
    pointers.PlainAt (pointers.regs.pc + 2#16 + pointers.word pointers.regs.pc) ∧ pointers.PlainAt (pointers.regs.pc - 2#16) :=
  ⟨plain (by decide), plain (by decide), plain (by decide)⟩

/-- Both sides of the stack limit: a push to `0o376` and one to `0o400`. -/
theorem wit_StackAddressing : ∀ sp ∈ [0o400#16, 0o402#16], ∃ s, s = small 0#16 0#16 0#16 0#16 sp 0#16 [(0o1000, 0o200#16)] ∧
    s.reg .sp = sp ∧ s.PlainAt (sp - 2#16) ∧ s.PlainAt sp ∧ s.PlainAt s.regs.pc ∧ s.PlainAt (sp + s.word s.regs.pc) := by
  intro sp h
  rcases List.mem_pair.mp h with rfl | rfl
  · exact ⟨_, rfl, rfl, plain (by decide), plain (by decide), plain (by decide), plain (by decide)⟩
  · exact ⟨_, rfl, rfl, plain (by decide), plain (by decide), plain (by decide), plain (by decide)⟩

/-- Every mode, an address that cannot be computed, a read in plain memory and one through a page, and other masters silent. -/
theorem wit_OperandReadFrame :
    (∀ m ∈ [AddrMode.register, .deferred, .autoInc, .autoDec, .index, .autoIncDeferred, .autoDecDeferred, .indexDeferred],
      ∃ p t, place .word ⟨m, .r1⟩ pointers = .ok p t) ∧
    (∃ sp a t, effectiveAddress ⟨.autoInc, .r1⟩ 2 pointers = .ok (sp, a) t) ∧
    (∃ e t, effectiveAddress ⟨.autoIncDeferred, .r3⟩ 2 pointers = .error e t) ∧
    (∃ e t, place .byte ⟨.autoIncDeferred, .r3⟩ pointers = .error e t) ∧
    (∃ x t, readPlace .word (.mem .d 0o2000#16) .modify pointers = .ok x t) ∧ pointers.PlainAt 0o2000#16 ∧
    pointers.Undisturbed ∧ ∃ pa u x t, translate .d kernel 0o2001#16 .read pointers = .ok pa u ∧ u.deviceAt pa = .storage ∧
      readPlace .byte (.mem .d 0o2001#16) .read pointers = .ok x t := by
  refine ⟨fun m h => ?_, ⟨_, _, _, rfl⟩, ⟨_, _, rfl⟩, ⟨_, _, rfl⟩, ⟨_, _, rfl⟩, plain (by decide), nofun, _, _, _, _, rfl, rfl, rfl⟩
  fin_cases h <;> exact ⟨_, _, rfl⟩

/-- Pointers that cannot be read, and an operand that cannot. -/
theorem wit_OperandReadFrame_early : (∃ e t, place .word ⟨.autoIncDeferred, .r1⟩ (failing 0) = .error e t) ∧
    (∃ e t, place .byte ⟨.autoDecDeferred, .r1⟩ (failing 0) = .error e t) ∧
    ∃ e t, readPlace .word (.mem .d 0o2000#16) .read (failing 0) = .error e t := ⟨⟨_, _, rfl⟩, ⟨_, _, rfl⟩, _, _, rfl⟩

/-- A non-resident page: the abort of the memory management unit writes MMR0; and the register of a mode that reads a pointer stays
stepped. The abort of a bus cycle leaves MMR0. -/
theorem wit_OperandReadFrame_mmr0 :
    (∃ t, readPlace .word (.mem .d 0o2000#16) .read (mapped 1#16 0#16 0#16 0o77400#16) = .error (.raise .mmuAbort) t ∧
      t.mmu.mmr0 = 0o100001#16) ∧
    (∃ t, place .word ⟨.autoIncDeferred, .r1⟩ (mapped 1#16 0#16 0#16 0o77400#16) = .error (.raise .mmuAbort) t ∧
      t.reg .r1 = 0o2002#16) ∧
    (∃ t, place .word ⟨.autoIncDeferred, .r1⟩ (failing 0) = .error (.raise .nonExistentMemory) t ∧ t.mmu.mmr0 = 0#16) :=
  ⟨⟨_, rfl, rfl⟩, ⟨_, rfl, rfl⟩, _, rfl, rfl⟩

theorem wit_OperandWriteFrame : pointers.mem.wf = true ∧
    ∃ pa b t, (Place.mem .d 0o2000#16).target pointers = some pa ∧ pointers.deviceAt pa = .storage ∧
      writePlace .word (.mem .d 0o2000#16) 7#16 pointers = .ok b t := ⟨by decide, _, _, _, rfl, rfl, rfl⟩

/-- The same with relocation on. -/
theorem wit_OperandWriteFrame_mapped :
    ∃ pa b t, (Place.mem .d 0o2000#16).target (mapped 1#16 0o20#16 0#16 0o77406#16) = some pa ∧
      (mapped 1#16 0o20#16 0#16 0o77406#16).deviceAt pa = .storage ∧
      writePlace .word (.mem .d 0o2000#16) 7#16 (mapped 1#16 0o20#16 0#16 0o77406#16) = .ok b t := ⟨_, _, _, rfl, rfl, rfl⟩

/-- Register addresses inside the chip: the PS, PIRQ, the first user PDR and the last kernel PAR, and a value read there. -/
theorem wit_SystemRegisterWrites : ((0o17777776#22, IntReg.ps) ∈ systemRegisterTable ∧
    (0o17777772#22, IntReg.pirq) ∈ systemRegisterTable ∧ (0o17777600#22, IntReg.pdr 32) ∈ systemRegisterTable ∧
    (0o17772376#22, IntReg.par 15) ∈ systemRegisterTable) ∧ (∃ w t, readInt .mmr0 pointers = .ok w t) ∧
    pointers.deviceAt 0o17772377#22 = .internal (.par 15) := ⟨by decide, ⟨_, _, rfl⟩, by decide⟩

theorem wit_UnaryInstructions :
    (∃ p s1 x s2 b t, place .word ⟨.autoInc, .r1⟩ pointers = .ok p s1 ∧ readPlace .word p .modify s1 = .ok x s2 ∧
      ∃ row ∈ unaryWordTable ⟨.autoInc, .r1⟩ x false, writePlace .word p row.2.1 s2 = .ok b t) ∧
    (∃ p s1 x s2 b t, place .byte ⟨.autoInc, .r1⟩ pointers = .ok p s1 ∧ readPlace .byte p .modify s1 = .ok x s2 ∧
      ∃ row ∈ unaryByteTable ⟨.autoInc, .r1⟩ (x.extractLsb' 0 8) false, writePlace .byte p (lowByte row.2.1) s2 = .ok b t) :=
  ⟨⟨_, _, _, _, _, _, rfl, rfl, _, List.mem_cons_self, rfl⟩, _, _, _, _, _, _, rfl, rfl, _, List.mem_cons_self, rfl⟩

theorem wit_UnaryInstructions_early : ∀ sz : Size, (∃ e t, place sz ⟨.autoIncDeferred, .r1⟩ (failing 0) = .error e t) ∧
    (∃ p s1 e t, place sz ⟨.deferred, .r1⟩ (failing 0) = .ok p s1 ∧ readPlace sz p .modify s1 = .error e t) ∧
    (∃ p s1 x s2 e t, place sz ⟨.deferred, .r1⟩ (failing 1) = .ok p s1 ∧ readPlace sz p .modify s1 = .ok x s2 ∧
      writePlace sz p 7#16 s2 = .error e t) := by
  intro sz
  cases sz <;> exact ⟨⟨_, _, rfl⟩, ⟨_, _, _, _, rfl, rfl⟩, _, _, _, _, _, _, rfl, rfl, rfl⟩

theorem wit_UnaryMemoryFrame : (pointers.mem.wf = true ∧ pointers.Undisturbed) ∧
    (∃ p s1 x s2 pa t, place .word ⟨.autoInc, .r1⟩ pointers = .ok p s1 ∧ readPlace .word p .modify s1 = .ok x s2 ∧
      p.target s2 = some pa ∧ s2.deviceAt pa = .storage ∧ (s1.busAnswer pa).abort = false ∧
      (s2.busAnswer pa).abort = false ∧
      exec (.tstset ⟨.autoInc, .r1⟩) pointers = .next t) ∧
    (∃ p s1 x s2 pa t, place .byte ⟨.autoInc, .r1⟩ pointers = .ok p s1 ∧ readPlace .byte p .modify s1 = .ok x s2 ∧
      p.target s2 = some pa ∧ s2.deviceAt pa = .storage ∧ (s1.busAnswer pa).abort = false ∧
      (s2.busAnswer pa).abort = false ∧
      exec (.clrb ⟨.autoInc, .r1⟩) pointers = .next t) :=
  ⟨⟨by decide, nofun⟩, ⟨_, _, _, _, _, _, rfl, rfl, rfl, rfl, rfl, rfl, rfl⟩, _, _, _, _, _, _, rfl, rfl, rfl, rfl, rfl, rfl, rfl⟩

theorem wit_ClearSignExtendTest :
    (∃ p s1 b t, place .word ⟨.deferred, .r1⟩ pointers = .ok p s1 ∧ writePlace .word p 0#16 s1 = .ok b t) ∧
    (∃ p s1 b t, place .byte ⟨.deferred, .r1⟩ pointers = .ok p s1 ∧ writePlace .byte p 0#16 s1 = .ok b t) ∧
    (∃ x s1, readOp .word ⟨.deferred, .r1⟩ pointers = .ok x s1) ∧ ∃ x s1, readOp .byte ⟨.deferred, .r1⟩ pointers = .ok x s1 :=
  ⟨⟨_, _, _, _, rfl, rfl⟩, ⟨_, _, _, _, rfl, rfl⟩, ⟨_, _, rfl⟩, _, _, rfl⟩

/-- Also of MFPS and MTPS, and of the source of MUL, DIV, ASH and ASHC. -/
theorem wit_ClearSignExtendTest_early : ∀ sz : Size, (∃ e t, place sz ⟨.autoIncDeferred, .r1⟩ (failing 0) = .error e t) ∧
    (∃ p s1 e t, place sz ⟨.deferred, .r1⟩ (failing 0) = .ok p s1 ∧ writePlace sz p 0#16 s1 = .error e t) ∧
    ∃ e t, readOp sz ⟨.deferred, .r1⟩ (failing 0) = .error e t := by
  intro sz
  cases sz <;> exact ⟨⟨_, _, rfl⟩, ⟨_, _, _, _, rfl, rfl⟩, _, _, rfl⟩

theorem wit_MoveByteOfPs :
    (∃ p s1 b t, place .byte ⟨.deferred, .r1⟩ pointers = .ok p s1 ∧
      writePlace .byte p (lowByte (pointers.ps.extractLsb' 0 8)) s1 = .ok b t) ∧
    (∃ v s1, readOp .byte (rr .r1) pointers = .ok v s1) ∧ (rr .r1).mode = .register :=
  ⟨⟨_, _, _, _, rfl, rfl⟩, ⟨_, _, rfl⟩, rfl⟩

theorem wit_InterlockedInstructions : (∃ p s1 x s2 b t b' t', place .word ⟨.deferred, .r1⟩ pointers = .ok p s1 ∧
    readPlace .word p .modify s1 = .ok x s2 ∧ lockedCycle (writePlace .word p (x ||| 1#16)) (s2.setReg .r0 x) = .ok b t ∧
    lockedCycle (writePlace .word p (s2.reg .r0)) s2 = .ok b' t') ∧
    (∃ b t, lockedCycle (writePlace .word (.mem .d 0o2000#16) 7#16) pointers = .ok b t) ∧ pointers.Undisturbed ∧
    ∃ s pa b t, s = { pointers with answers := [disturbed 5#16] } ∧ s.mem.wf = true ∧
      (Place.mem .d 0o2000#16).target s = some pa ∧ s.deviceAt pa = .storage ∧
      lockedCycle (writePlace .word (.mem .d 0o2000#16) 7#16) s = .ok b t :=
  ⟨⟨_, _, _, _, _, _, _, _, rfl, rfl, rfl, rfl⟩, ⟨_, _, rfl⟩, nofun, _, _, _, _, rfl, by decide, rfl, rfl, rfl⟩

theorem wit_InterlockedInstructions_early : (∃ e t, place .word ⟨.autoIncDeferred, .r1⟩ (failing 0) = .error e t) ∧
    (∃ p s1 e t, place .word ⟨.deferred, .r1⟩ (failing 0) = .ok p s1 ∧ readPlace .word p .modify s1 = .error e t) ∧
    (∃ p s1 x s2 e t e' t', place .word ⟨.deferred, .r1⟩ (failing 1) = .ok p s1 ∧ readPlace .word p .modify s1 = .ok x s2 ∧
      lockedCycle (writePlace .word p (x ||| 1#16)) (s2.setReg .r0 x) = .error e t ∧
      lockedCycle (writePlace .word p (s2.reg .r0)) s2 = .error e' t') :=
  ⟨⟨_, _, rfl⟩, ⟨_, _, _, _, rfl, rfl⟩, _, _, _, _, _, _, _, _, rfl, rfl, rfl, rfl⟩

/-- A source in memory, and a register source, with a destination in memory. -/
theorem wit_DoubleOperands :
    (∃ x p t, DoubleOperands .word ⟨.autoInc, .r1⟩ ⟨.deferred, .r2⟩ pointers x p t) ∧
    (∃ x p t, DoubleOperands .byte (rr .r1) ⟨.deferred, .r2⟩ pointers x p t) :=
  ⟨⟨_, _, _, _, rfl, rfl⟩, _, _, _, rfl, rfl⟩

theorem wit_BinaryInstructions :
    (∃ x p s1 y s2 b t, DoubleOperands .word ⟨.autoInc, .r1⟩ ⟨.deferred, .r2⟩ pointers x p s1 ∧
      readPlace .word p .modify s1 = .ok y s2 ∧
      ∃ row ∈ binaryWordTable ⟨.autoInc, .r1⟩ ⟨.deferred, .r2⟩ x y false, writePlace .word p row.2.1 s2 = .ok b t) ∧
    (∃ x p s1 y s2 b t, DoubleOperands .byte ⟨.autoInc, .r1⟩ ⟨.deferred, .r2⟩ pointers x p s1 ∧
      readPlace .byte p .modify s1 = .ok y s2 ∧
      ∃ row ∈ binaryByteTable ⟨.autoInc, .r1⟩ ⟨.deferred, .r2⟩ (x.extractLsb' 0 8) (y.extractLsb' 0 8) false,
        writePlace .byte p (lowByte row.2.1) s2 = .ok b t) ∧
    (∃ p s1 y s2 b t, place .word ⟨.deferred, .r2⟩ pointers = .ok p s1 ∧ readPlace .word p .modify s1 = .ok y s2 ∧
      writePlace .word p (y ^^^ s1.reg .r1) s2 = .ok b t) :=
  ⟨⟨_, _, _, _, _, _, _, ⟨_, rfl, rfl⟩, rfl, _, List.mem_cons_self, rfl⟩,
   ⟨_, _, _, _, _, _, _, ⟨_, rfl, rfl⟩, rfl, _, List.mem_cons_self, rfl⟩, _, _, _, _, _, _, rfl, rfl, rfl⟩

theorem wit_CompareInstructions :
    (∃ x p s1 y t, DoubleOperands .word ⟨.autoInc, .r1⟩ ⟨.deferred, .r2⟩ pointers x p s1 ∧
      readPlace .word p .read s1 = .ok y t) ∧
    (∃ x p s1 y t, DoubleOperands .byte ⟨.autoInc, .r1⟩ ⟨.deferred, .r2⟩ pointers x p s1 ∧
      readPlace .byte p .read s1 = .ok y t) :=
  ⟨⟨_, _, _, _, _, ⟨_, rfl, rfl⟩, rfl⟩, _, _, _, _, _, ⟨_, rfl, rfl⟩, rfl⟩

theorem wit_MoveInstructions :
    (∃ x p s1 b t, DoubleOperands .word ⟨.autoInc, .r1⟩ ⟨.deferred, .r2⟩ pointers x p s1 ∧ writePlace .word p x s1 = .ok b t) ∧
    (∃ x p s1 b t, DoubleOperands .byte ⟨.autoInc, .r1⟩ ⟨.deferred, .r2⟩ pointers x p s1 ∧
      writePlace .byte p (lowByte (x.extractLsb' 0 8)) s1 = .ok b t) ∧
    (∃ x p s1, DoubleOperands .byte ⟨.autoInc, .r1⟩ (rr .r0) pointers x p s1) :=
  ⟨⟨_, _, _, _, _, ⟨_, rfl, rfl⟩, rfl⟩, ⟨_, _, _, _, _, ⟨_, rfl, rfl⟩, rfl⟩, _, _, _, ⟨_, rfl, rfl⟩⟩

/-- Of all two-operand instructions: the source or the destination's address cannot be had, the destination cannot be read, or not
written after a register or a memory source. -/
theorem wit_DoubleOperands_early : ∀ sz : Size,
    (∃ e t, DoubleOperandsEnd sz ⟨.deferred, .r1⟩ (rr .r0) (failing 0) e t) ∧
    (∃ e t, DoubleOperandsEnd sz ⟨.deferred, .r1⟩ ⟨.autoIncDeferred, .r1⟩ (failing 1) e t) ∧
    (∃ e t, DoubleOperandsEnd sz (rr .r0) ⟨.autoIncDeferred, .r1⟩ (failing 0) e t) ∧
    (∃ x p s1 e t e' t', DoubleOperands sz (rr .r0) ⟨.deferred, .r1⟩ (failing 0) x p s1 ∧
      readPlace sz p .modify s1 = .error e t ∧ readPlace sz p .read s1 = .error e t ∧ writePlace sz p x s1 = .error e' t') ∧
    (∃ x p s1 y s2 e t, DoubleOperands sz (rr .r0) ⟨.deferred, .r1⟩ (failing 1) x p s1 ∧
      readPlace sz p .modify s1 = .ok y s2 ∧ writePlace sz p x s2 = .error e t) := by
  intro sz
  cases sz <;> exact ⟨⟨_, _, .inl rfl⟩, ⟨_, _, .inr ⟨_, _, rfl, rfl⟩⟩, ⟨_, _, rfl⟩, ⟨_, _, _, _, _, _, _, ⟨rfl, rfl⟩, rfl, rfl, rfl⟩,
    _, _, _, _, _, _, _, ⟨rfl, rfl⟩, rfl, rfl⟩

theorem wit_BinaryMemoryFrame : (pointers.mem.wf = true ∧ pointers.Undisturbed) ∧
    (∃ x p s1 pa t, DoubleOperands .word ⟨.autoInc, .r1⟩ ⟨.deferred, .r2⟩ pointers x p s1 ∧ p.target s1 = some pa ∧
      s1.deviceAt pa = .storage ∧ (∀ sp va, p = .mem sp va → Size.word = .word → va.getLsbD 0 = false) ∧
      (s1.busAnswer pa).abort = false ∧ (s1.answered.busAnswer pa).abort = false ∧ exec (.add ⟨.autoInc, .r1⟩ ⟨.deferred, .r2⟩) pointers = .next t) ∧
    (∃ x p s1 pa t, DoubleOperands .word (rr .r1) ⟨.deferred, .r2⟩ pointers x p s1 ∧ p.target s1 = some pa ∧
      s1.deviceAt pa = .storage ∧ (∀ sp va, p = .mem sp va → Size.word = .word → va.getLsbD 0 = false) ∧
      exec (.xor .r1 ⟨.deferred, .r2⟩) pointers = .next t) ∧
    (∃ x p s1 pa t, DoubleOperands .byte ⟨.autoInc, .r1⟩ ⟨.deferred, .r2⟩ pointers x p s1 ∧ p.target s1 = some pa ∧
      s1.deviceAt pa = .storage ∧ exec (.movb ⟨.autoInc, .r1⟩ ⟨.deferred, .r2⟩) pointers = .next t) :=
  ⟨⟨by decide, nofun⟩, ⟨_, _, _, _, _, ⟨_, rfl, rfl⟩, rfl, rfl, fun _ _ h _ => (Place.mem.inj h).2 ▸ rfl, rfl, rfl, rfl⟩,
   ⟨_, _, _, _, _, ⟨rfl, rfl⟩, rfl, rfl, fun _ _ h _ => (Place.mem.inj h).2 ▸ rfl, rfl⟩, _, _, _, _, _, ⟨_, rfl, rfl⟩, rfl, rfl, rfl⟩

theorem wit_readOp : ∃ v s1, readOp .word (rr .r3) pointers = .ok v s1 := ⟨_, _, rfl⟩

/-- Dividing by 3: the quotients 32767, 32768, -32768 and -32769, each with its remainder; and a divisor of zero. -/
theorem wit_Divide :
    (∀ p ∈ [((98303 : Int), (32767 : Int), (2 : Int)), (98304, 32768, 0), (-98306, -32768, -2), (-98307, -32769, 0)],
      p.1 = ((BitVec.ofInt 32 p.1).extractLsb' 16 16 ++ (BitVec.ofInt 32 p.1).extractLsb' 0 16).toInt ∧
      p.1 = p.2.1 * (3#16 : Word).toInt + p.2.2 ∧ p.2.2.natAbs < (3#16 : Word).toInt.natAbs ∧
      (0 ≤ p.1 → 0 ≤ p.2.2) ∧ (p.1 ≤ 0 → p.2.2 ≤ 0)) ∧
    (∃ s1, readOp .word (rr .r3) pointers = .ok 3#16 s1) ∧ ∃ s1, readOp .word (rr .r4) pointers = .ok 0#16 s1 :=
  ⟨by decide, ⟨_, rfl⟩, _, rfl⟩

theorem wit_JumpsCallsReturns :
    (∃ sp a s1, effectiveAddress ⟨.autoInc, .r1⟩ 2 pointers = .ok (sp, a) s1 ∧ ∃ b u, push (s1.reg .r5) s1 = .ok b u) ∧
    (∃ v s1, pop pointers = .ok v s1) ∧
    (∃ v s1, pop ((pointers.setReg .sp (pointers.regs.pc + BitVec.ofNat 16 (2 * (2#6).toNat))).setReg .pc
      (pointers.reg .r5)) = .ok v s1) := ⟨⟨_, _, _, rfl, _, _, rfl⟩, ⟨_, _, rfl⟩, _, _, rfl⟩

/-- Also of both pops of RTI and RTT. -/
theorem wit_JumpsCallsReturns_early : (∃ e u, effectiveAddress ⟨.autoIncDeferred, .r1⟩ 2 (failing 0) = .error e u) ∧
    (∃ sp a s1 e u, effectiveAddress ⟨.deferred, .r1⟩ 2 (failing 0) = .ok (sp, a) s1 ∧ push (s1.reg .r5) s1 = .error e u) ∧
    (∃ e u, pop (failing 0) = .error e u) ∧ (∃ v s1 e u, pop (failing 1) = .ok v s1 ∧ pop s1 = .error e u) ∧
    (∃ e u, pop (((failing 0).setReg .sp 0o1004#16).setReg .pc ((failing 0).reg .r5)) = .error e u) :=
  ⟨⟨_, _, rfl⟩, ⟨_, _, _, _, _, rfl, rfl⟩, ⟨_, _, rfl⟩, ⟨_, _, _, _, rfl, rfl⟩, _, _, rfl⟩

/-- Every vector of the trap statements can run its sequence, here to a new PS of zero; `0o60` is a device's. -/
theorem wit_TrapReady : ∀ v ∈ [0o4#16, 0o10#16, 0o14#16, 0o20#16, 0o24#16, 0o30#16, 0o34#16, 0o60#16, 0o100#16, 0o114#16,
    0o240#16, 0o244#16, 0o250#16],
    pointers.TrapReady v := by
  intro v h
  fin_cases h <;> exact ⟨rfl, plain (by decide), plain (by decide), plain (by decide), plain (by decide)⟩

theorem wit_RedStackAbort : (pointers.mem.wf = true ∧ pointers.lines.haltAtVector = false) ∧
    (∀ a ∈ [0#16, 2#16, 4#16, 6#16, 0o30#16, 0o32#16],
      State.PlainAt { pointers with regs := { pointers.regs with ksp := 0o1001#16 } } a) ∧
    State.vectorMode { pointers with regs := { pointers.regs with ksp := 0o1001#16 } } 0o30#16 = kernel ∧
    (0o1001#16 - 2#16 : Word).getLsbD 0 = true := by
  refine ⟨by decide, fun a h => ?_, by decide, by decide⟩
  fin_cases h <;> exact plain (by decide)

theorem wit_ReturnsFromTraps : pointers.PlainAt (pointers.reg .sp) ∧ pointers.PlainAt (pointers.reg .sp + 2#16) :=
  ⟨plain (by decide), plain (by decide)⟩

/-- User mode with CSM enabled. -/
abbrev enabled : State :=
  { pointers with ps := 0o140005#16, mmu := { State.reset.mmu with mmr3 := 0o10#16 } }

theorem wit_CallSupervisor : (pointers.curMode = kernel ∧ pointers.mmu.mmr3.getLsbD 3 = false) ∧ enabled.curMode ≠ kernel ∧
    enabled.mmu.mmr3.getLsbD 3 = true ∧ readOp .word (rr .r3) enabled = .ok 3#16 enabled ∧
    enabled.PlainAt (enabled.reg .sp - 2#16) ∧ enabled.PlainAt (enabled.reg .sp - 4#16) ∧
    enabled.PlainAt (enabled.reg .sp - 6#16) ∧ enabled.PlainAt 0o10#16 :=
  ⟨by decide, by decide, by decide, rfl, plain (by decide), plain (by decide), plain (by decide), plain (by decide)⟩

/-- The argument, each push, or the read of the new PC fails, when `n` cycles went before: before the switch and after it. -/
abbrev enabledFailing (n : Nat) : State := { enabled with answers := (failing n).answers }

/-- After the switch to supervisor mode. -/
abbrev switched (n : Nat) : State :=
  { enabledFailing n with
    regs := { enabled.regs with ssp := 0o1000#16 }, ps := 0o070005#16, flow := { enabled.flow with prefetchFault := true } }

theorem wit_CallSupervisor_early : (∃ e u, readOp .word ⟨.deferred, .r1⟩ (enabledFailing 0) = .error e u) ∧
    (∀ n : Fin 4, ∃ u, readOp .word (rr .r3) (enabledFailing n) = .ok 3#16 u) ∧
    (enabled.reg .sp = 0o1000#16 ∧ 1#2 ++ enabled.ps.extractLsb' 14 2 ++ enabled.ps.extractLsb' 5 7 ++ 0#1 ++
      enabled.ps.extractLsb' 0 4 = 0o070005#16) ∧
    (∃ e u, push 0o140000#16 (switched 0) = .error e u) ∧
    (∃ b t e u, push 0o140000#16 (switched 1) = .ok b t ∧ push t.regs.pc t = .error e u) ∧
    (∃ b t b' t' e u, push 0o140000#16 (switched 2) = .ok b t ∧ push t.regs.pc t = .ok b' t' ∧ push 3#16 t' = .error e u) ∧
    (∃ b t b' t' b3 t3 e u, push 0o140000#16 (switched 3) = .ok b t ∧ push t.regs.pc t = .ok b' t' ∧ push 3#16 t' = .ok b3 t3 ∧
      memRead .i supervisor .word 0o10#16 .read t3 = .error e u) :=
  ⟨⟨_, _, rfl⟩, fun n => by fin_cases n <;> exact ⟨_, rfl⟩, by decide, ⟨_, _, rfl⟩, ⟨_, _, _, _, rfl, rfl⟩, ⟨_, _, _, _, _, _, rfl, rfl, rfl⟩,
   _, _, _, _, _, _, _, _, rfl, rfl, rfl, rfl⟩

/-- Console ODT at some point, with characters to print and the transmitter ready or not. -/
abbrev inConsole (c : Console) (rx : Option Byte) (ready : Bool) (out : List Byte) : State :=
  { pointers with
    phase := .console c
    io := { State.reset.io with rx := rx, txReady := ready, out := out }
    script := [{ lines := Lines.quiet, chars := [], transmitted := false, answers := [], dma := [] }] }

theorem wit_HaltWaitResetSpl : (pointers.curMode = kernel ∧ pointers.plat.cfg.haltOption = false) ∧
    (enabled.curMode ≠ kernel ∧ enabled.TrapReady 0o4#16) ∧
    (∀ ready : Bool, (inConsole .entering none ready crlf).sampleInputs.io.txReady = ready ∧
      (inConsole .entering none ready crlf).sampleInputs.io.out = crlf) ∧
    (inConsole .entering (some 0#8) true []).sampleInputs.phase = .console .entering ∧
    (inConsole .entering (some 0#8) true []).sampleInputs.plat.serialLine = true ∧
    (inConsole .entering (some 0#8) true []).sampleInputs.lines.init = false :=
  ⟨by decide, ⟨by decide, rfl, plain (by decide), plain (by decide), plain (by decide), plain (by decide)⟩, by decide, rfl, rfl,
   rfl⟩

theorem wit_CodeOperatorsAndNoOperations : enabled.curMode ≠ kernel ∧ (Instr.nop, false, 0#4) ∈ ccTable ∧
    (Instr.scc, true, 15#4) ∈ ccTable := by decide

theorem wit_PreviousSpaceMoves :
    (∃ b t, push (pointers.stackPtr pointers.prevMode) pointers = .ok b t) ∧
    (∃ sp a s1 v s2 b t, effectiveAddress ⟨.deferred, .r1⟩ 2 pointers = .ok (sp, a) s1 ∧
      memRead .i pointers.prevMode .word a .read s1 = .ok v s2 ∧ push v s2 = .ok b t) ∧
    (∃ v t, pop pointers = .ok v t) ∧
    (∃ v s1 sp a s2 b t, pop pointers = .ok v s1 ∧ effectiveAddress ⟨.deferred, .r1⟩ 2 s1 = .ok (sp, a) s2 ∧
      memWrite .d pointers.prevMode .word a v s2 = .ok b t) :=
  ⟨⟨_, _, rfl⟩, ⟨_, _, _, _, _, _, _, rfl, rfl, rfl⟩, ⟨_, _, rfl⟩, _, _, _, _, _, _, _, rfl, rfl, rfl⟩

theorem wit_PreviousSpaceMoves_early : (∃ e u, push (pointers.reg .r1) (failing 0) = .error e u) ∧
    (∃ e u, effectiveAddress ⟨.autoIncDeferred, .r1⟩ 2 (failing 0) = .error e u) ∧
    (∃ sp a s1 e u, effectiveAddress ⟨.deferred, .r1⟩ 2 (failing 0) = .ok (sp, a) s1 ∧
      memRead .i kernel .word a .read s1 = .error e u) ∧
    (∃ sp a s1 v s2 e u, effectiveAddress ⟨.deferred, .r1⟩ 2 (failing 1) = .ok (sp, a) s1 ∧
      memRead .i kernel .word a .read s1 = .ok v s2 ∧ push v s2 = .error e u) ∧
    (∃ e u, pop (failing 0) = .error e u) ∧
    (∃ v s1 e u, pop (failing 1) = .ok v s1 ∧ effectiveAddress ⟨.autoIncDeferred, .r1⟩ 2 s1 = .error e u) ∧
    (∃ v s1 sp a s2 e u, pop (failing 1) = .ok v s1 ∧ effectiveAddress ⟨.deferred, .r1⟩ 2 s1 = .ok (sp, a) s2 ∧
      memWrite .d kernel .word a v s2 = .error e u) :=
  ⟨⟨_, _, rfl⟩, ⟨_, _, rfl⟩, ⟨_, _, _, _, _, rfl, rfl⟩, ⟨_, _, _, _, _, _, _, rfl, rfl, rfl⟩, ⟨_, _, rfl⟩, ⟨_, _, _, _, rfl, rfl⟩,
   _, _, _, _, _, _, _, rfl, rfl, rfl⟩

/-- Each pending trap with those above it absent, a program request above the priority, none, an aborted acknowledge, and the
ends of a wait. -/
theorem wit_ServicePriority :
    pointers.flow.pendParity = false ∧ pointers.flow.pendTrace = false ∧ pointers.flow.pendYellow = false ∧
    pointers.lines.pwrf = false ∧ pointers.flow.pendFp = false ∧ pointers.highestRequest = none ∧
    State.highestRequest { pointers with ps := 0o300#16, sys := { pointers.sys with pirq := 64#7 } } = some .pirq ∧
    State.highestRequest { pointers with ps := 0o340#16, sys := { pointers.sys with pirq := 64#7 } } = none ∧
    State.highestRequest { pointers with lines := { Lines.quiet with pwrf := true } } = some .powerFail ∧
    State.highestRequest { pointers with lines := { Lines.quiet with irq4 := .asserted none } } = some (.irq none) ∧
    State.wakeRequest { pointers with lines := { Lines.quiet with irq4 := .asserted none, event := true } } = some .event ∧
    State.wakeRequest { pointers with lines := { Lines.quiet with irq4 := .asserted none, halt := true } } = none ∧
    State.wakeRequest { pointers with flow := { pointers.flow with pendTrace := true, pendParity := true } } = some .parity ∧
    (State.sampleInputs { pointers with phase := .waiting }).phase = .waiting := by decide

theorem wit_EventsTakenInPlainMemory : pointers.TrapReady 0o4#16 ∧
    State.TrapReady { pointers with flow := { pointers.flow with pendYellow := true } } 0o4#16 ∧
    ({ Lines.quiet with haltAtVector := true } : Lines).haltAtVector = true :=
  ⟨wit_TrapReady _ (by simp), ⟨rfl, plain (by decide), plain (by decide), plain (by decide), plain (by decide)⟩, rfl⟩

/-- `G` received after a number or at the prompt, `g` typed, and the start due. -/
theorem wit_ConsoleStart : (∀ c rx, (inConsole c rx true []).sampleInputs.phase = .console c ∧
      (inConsole c rx true []).sampleInputs.io.rx = rx ∧ (inConsole c rx true []).sampleInputs.lines.init = false ∧
      (inConsole c rx true []).plat.serialLine = true ∧ (inConsole c rx true []).sampleInputs.io.out = []) ∧
    (0o107#8).toNat % 128 = 0o107 ∧ (0o347#8).toNat % 128 = 0o147 ∧
    (inConsole (.go 0o1000#16) none true []).sampleInputs.deviceAt 0o17777744#22 ≠ .storage ∧
    (inConsole (.go 0o1000#16) none true []).sampleInputs.Undisturbed :=
  ⟨fun _ _ => ⟨rfl, rfl, rfl, rfl, rfl⟩, by decide, by decide, by decide, nofun⟩

theorem wit_FloatControl :
    (∃ v s1, readOp .word (rr .r3) pointers = .ok v s1) ∧
    (∃ p s1 b t, place .word ⟨.deferred, .r1⟩ pointers = .ok p s1 ∧
      writePlace .word p (pointers.fpu.fps &&& 0o147757#16) s1 = .ok b t) ∧
    (∃ sp a s1 b t b' u, effectiveAddress ⟨.autoDec, .r1⟩ 4 pointers = .ok (sp, a) s1 ∧
      memWrite sp s1.curMode .word a 0#16 s1 = .ok b t ∧ memWrite sp t.curMode .word (a + 2#16) 0#16 t = .ok b' u) ∧
    (∃ sp a s1 b t, effectiveAddress ⟨.autoInc, .pc⟩ 4 pointers = .ok (sp, a) s1 ∧
      memWrite sp s1.curMode .word a 0#16 s1 = .ok b t) :=
  ⟨⟨_, _, rfl⟩, ⟨_, _, _, _, rfl, rfl⟩, ⟨_, _, _, _, _, _, _, rfl, rfl, rfl⟩, _, _, _, _, _, rfl, rfl⟩

theorem wit_FloatControl_early : (∃ e u, readOp .word ⟨.deferred, .r1⟩ (failing 0) = .error e u) ∧
    (∃ e u, place .word ⟨.autoIncDeferred, .r1⟩ (failing 0) = .error e u) ∧
    (∃ p s1 e u, place .word ⟨.deferred, .r1⟩ (failing 0) = .ok p s1 ∧ writePlace .word p 0#16 s1 = .error e u) ∧
    (∃ e u, effectiveAddress ⟨.autoIncDeferred, .r1⟩ 4 (failing 0) = .error e u) ∧
    (∃ sp a s1 e u, effectiveAddress ⟨.deferred, .r1⟩ 4 (failing 0) = .ok (sp, a) s1 ∧
      memWrite sp s1.curMode .word a 0#16 s1 = .error e u) ∧
    (∃ sp a s1 b t e u, effectiveAddress ⟨.deferred, .r1⟩ 4 (failing 1) = .ok (sp, a) s1 ∧
      memWrite sp s1.curMode .word a 0#16 s1 = .ok b t ∧ memWrite sp t.curMode .word (a + 2#16) 0#16 t = .error e u) :=
  ⟨⟨_, _, rfl⟩, ⟨_, _, rfl⟩, ⟨_, _, _, _, rfl, rfl⟩, ⟨_, _, rfl⟩, ⟨_, _, _, _, _, rfl, rfl⟩, _, _, _, _, _, _, _, rfl, rfl, rfl⟩

theorem wit_FloatSources : (Reg.r5.bits.toNat = (5 : Fin 6).val) ∧
    (∀ k, k < FFormat.d.words → pointers.PlainAt (pointers.reg .r1 + BitVec.ofNat 16 (2 * k))) ∧
    pointers.PlainAt pointers.regs.pc := by
  refine ⟨rfl, fun k h => ?_, plain (by decide)⟩
  have : k = 0 ∨ k = 1 ∨ k = 2 ∨ k = 3 := by simp only [FFormat.words] at h; omega
  rcases this with rfl | rfl | rfl | rfl <;> exact plain (by decide)

/-- A source that its mode steps to, an immediate, and an address that cannot be computed. -/
theorem wit_FloatSources_modes :
    (∃ sp a t, effectiveAddress ⟨.autoInc, .r1⟩ 8 pointers = .ok (sp, a) t ∧
      ∀ k, k < FFormat.d.words → t.PlainAt (a + BitVec.ofNat 16 (2 * k))) ∧
    (∃ sp a t, effectiveAddress ⟨.autoInc, .pc⟩ 4 pointers = .ok (sp, a) t ∧ t.PlainAt a) ∧
    (∃ e t, effectiveAddress ⟨.autoIncDeferred, .r3⟩ 4 pointers = .error e t) ∧
    ∃ e t, readFloatPlace ⟨.deferred, .r1⟩ .f (.mem .d 0o2000#16) (failing 1) = .error e t := by
  refine ⟨⟨_, _, _, rfl, fun k h => ?_⟩, ⟨_, _, _, rfl, plain (by decide)⟩, ⟨_, _, rfl⟩, _, _, rfl⟩
  have : k = 0 ∨ k = 1 ∨ k = 2 ∨ k = 3 := by simp only [FFormat.words] at h; omega
  rcases this with rfl | rfl | rfl | rfl <;> exact plain (by decide)

theorem wit_FloatDestinations : pointers.mem.wf = true ∧
    (∀ k, k < FFormat.d.words → pointers.PlainAt (0o2000#16 + BitVec.ofNat 16 (2 * k))) ∧
    ¬((d.reg = .pc) ∧ (d.mode = .autoInc ∨ d.mode = .autoDec)) ∧ (1 : Fin 6) ≠ 0 ∧
    (∀ k, k < 1 → pointers.PlainAt (0o157776#16 + BitVec.ofNat 16 (2 * k))) :=
  ⟨by decide, wit_FloatSources.2.1, by decide, by decide, fun k h => by obtain rfl : k = 0 := by omega
                                                                        exact plain (by decide)⟩

/-- Relocation on, page 7 the I/O page and page 0 at `0o10000` in user mode, R1 at the PS, AC0 with a user-mode PS word first. -/
abbrev overPs : State :=
  { float 0#16 (0o140000#16 ++ 0o12345#16 ++ 0#32) 0#64 with
    regs := (two 0#16 0o177776#16 0#16).regs
    mmu := { State.reset.mmu with
      mmr0 := 1#16, mmr3 := 0o20#16, pdr := Vector.replicate 48 0o77406#16
      par := ((Vector.replicate 48 0#16).set 7 0o177600#16).set 32 0o100#16 } }

/-- The word after the one that loads the PS is stored in the mode it loaded (20_memory R143). -/
theorem test_stf_over_ps : after (.stf .ac0 ⟨.deferred, .r1⟩) overPs
    (fun t => (t.curMode, t.mem.readWord 0o10000, t.mem.readWord 0)) = some (user, 0o12345#16, 0#16) := by decide

theorem wit_FloatDestinations_mode : ∃ b t b' u, memWrite .d overPs.curMode .word 0o177776#16 0o140000#16 overPs = .ok b t ∧
    memWrite .d t.curMode .word 0#16 0o12345#16 t = .ok b' u := ⟨_, _, _, _, rfl, rfl⟩

theorem wit_FloatMoves :
    (∃ p s1 t v, floatPlace ⟨.deferred, .r1⟩ .f pointers = .ok p s1 ∧
      writeFloatPlace ⟨.deferred, .r1⟩ .f p 0#64 s1 = .ok () t ∧ readFloatPlace ⟨.deferred, .r1⟩ .f p s1 = .ok v s1 ∧
      checkUndefined p v s1 = .ok () s1 ∧
      ∃ u, writeFloatPlace ⟨.deferred, .r1⟩ .f p (if v.extractLsb' 55 8 = 0#8 then 0#64 else 0#1 ++ v.extractLsb' 0 63) s1 =
        .ok () u) ∧
    (∃ v s1, readFloatSource ⟨.deferred, .r1⟩ .f pointers = .ok v s1) :=
  ⟨⟨_, _, _, _, rfl, rfl, rfl, rfl, _, rfl⟩, _, _, rfl⟩

/-- Also of the other floating instructions: accumulator 6, a source, a destination or its second word that cannot be read or
written, and a minus zero with FIUV set. -/
theorem wit_FloatMoves_early : (∃ u, floatPlace (rr .sp) .f pointers = .error .ended u) ∧
    (∃ e u, readFloatSource ⟨.deferred, .r1⟩ .f (failing 1) = .error e u) ∧
    (∃ p s1 e u, floatPlace ⟨.deferred, .r1⟩ .f (failing 1) = .ok p s1 ∧ writeFloatPlace ⟨.deferred, .r1⟩ .f p 0#64 s1 = .error e u) ∧
    (∃ p s1 e u, floatPlace ⟨.deferred, .r1⟩ .f (failing 1) = .ok p s1 ∧ readFloatPlace ⟨.deferred, .r1⟩ .f p s1 = .error e u) ∧
    (∃ p s1 v s2 e u, floatPlace ⟨.deferred, .r1⟩ .f (failing 2) = .ok p s1 ∧
      readFloatPlace ⟨.deferred, .r1⟩ .f p s1 = .ok v s2 ∧ checkUndefined p v s2 = .ok () s2 ∧
      writeFloatPlace ⟨.deferred, .r1⟩ .f p 0#64 s2 = .error e u) ∧
    (∃ u, checkUndefined (.mem .d 0o2000#16) (top 0o100000#16) (float 0o4000#16 0#64 0#64) = .error .ended u) :=
  ⟨⟨_, rfl⟩, ⟨_, _, rfl⟩, ⟨_, _, _, _, rfl, rfl⟩, ⟨_, _, _, _, rfl, rfl⟩, ⟨_, _, _, _, _, _, rfl, rfl, rfl, rfl⟩, _, rfl⟩

theorem wit_FloatArithmetic : pointers.precision = .f ∧
    (∃ s1, readFloatSource (rr .r1) .f (float 0#16 0#64 (top 0o040400#16)) = .ok (top 0o040400#16) s1) ∧
    (∃ s1, readFloatSource (rr .r1) .f (float 0#16 0#64 0#64) = .ok 0#64 s1) ∧
    (top 0o040400#16).extractLsb' 55 8 ≠ 0#8 ∧ (0#64 : BitVec 64).extractLsb' 55 8 = 0#8 :=
  ⟨rfl, ⟨_, rfl⟩, ⟨_, rfl⟩, by decide, by decide⟩

/-- One third and a number whose rounding carries into the exponent. -/
theorem wit_RoundingRule : (⟨false, 1, 3, 0⟩ : Exact).num ≠ 0 ∧ (⟨false, 1, 3, 0⟩ : Exact).den ≠ 0 ∧
    1 ≤ (roundTo ⟨false, 1, 3, 0⟩ 24 false).biased ∧ (roundTo ⟨false, 1, 3, 0⟩ 24 false).biased ≤ 255 ∧
    (roundTo ⟨true, 2 ^ 25 - 1, 1, 0⟩ 24 false).fraction = 2 ^ 23 := by decide

/-- Zero, and the biased exponents 256, 255, 1 and 0. -/
theorem wit_ArithmeticLimits : (Exact.zero.num = 0) ∧ (roundTo ⟨false, 1, 1, 127⟩ 24 true).biased = 256 ∧
    (roundTo ⟨false, 1, 1, 126⟩ 24 true).biased = 255 ∧ (roundTo ⟨false, 1, 1, -128⟩ 24 true).biased = 1 ∧
    (roundTo ⟨false, 1, 1, -129⟩ 24 true).biased = 0 := by decide

/-- A result with an exception and one without, stored: -0 sets FN and FZ (45 R509), `FER` is FPS bit 15 (10_state R71). -/
theorem wit_ArithmeticLimits_store :
    (pointers.storeResult 2 .d ⟨BitVec.intMin 64, true, some 8#4⟩).fpu.fps = 0o100016#16 ∧
    (pointers.storeResult 2 .d ⟨BitVec.intMin 64, true, some 8#4⟩).fpu.fec = 8#4 ∧
    (pointers.storeResult 2 .d ⟨BitVec.intMin 64, true, some 8#4⟩).flow.pendFp = true ∧
    (pointers.storeResult 2 .f ⟨0#64, true, none⟩).fpu.fps = 6#16 ∧
    (pointers.storeResult 2 .f ⟨0#64, true, none⟩).flow.pendFp = false := by decide

/-- The pattern of `2 ^ k`, for `-128 ≤ k < 127`. -/
abbrev powerOfTwo (k : Int) : BitVec 64 := 0#1 ++ BitVec.ofInt 8 (k + 129) ++ 0#55

/-- Products at the ends of every case: 0, `2 ^ 127`, `2 ^ 126`, `2 ^ 24`, `2 ^ 23`, 1, `2 ^ (-1)`, `2 ^ (-128)`, `2 ^ (-129)`; and
5 / 2, which has both parts. -/
theorem wit_FloatModulus :
    (∃ s1, readFloatSource (rr .r1) .f (float 0#16 0#64 (top 0o040400#16)) = .ok (top 0o040400#16) s1) ∧
    floatValue 0#64 * floatValue (powerOfTwo 0) = 0 ∧
    (∀ p ∈ [((63 : ℤ), (64 : ℤ)), (63, 63), (12, 12), (12, 11), (0, 0), (0, -1), (-64, -64), (-64, -65)],
      floatValue (powerOfTwo p.1) * floatValue (powerOfTwo p.2) = (2 : ℚ) ^ (p.1 + p.2)) ∧
    floatValue (top 0o040440#16) * floatValue (powerOfTwo 0) = 5 / 2 := by
  have fields : ∀ e : BitVec 8, exponentField (0#1 ++ e ++ 0#55) = e ∧ BitVec.msb (0#1 ++ e ++ 0#55) = false ∧
      BitVec.extractLsb' 0 55 (0#1 ++ e ++ 0#55) = 0#55 := by decide
  have h : ∀ k : ℤ, -128 ≤ k → k < 127 → floatValue (powerOfTwo k) = (2 : ℚ) ^ k := by
    intro k h1 h2
    obtain ⟨he, hm, hf⟩ := fields (BitVec.ofInt 8 (k + 129))
    have hn : ((BitVec.ofInt 8 (k + 129)).toNat : ℤ) = k + 129 := by simp only [BitVec.toNat_ofInt]; omega
    have h0 : BitVec.ofInt 8 (k + 129) ≠ 0#8 := fun h0 => by rw [h0] at hn; simp at hn; omega
    unfold floatValue powerOfTwo
    rw [he, hm, hf, if_neg h0, hn, show k + 129 - 128 = k + 1 by ring, zpow_add₀ (by norm_num : (2 : ℚ) ≠ 0)]
    simp
  refine ⟨⟨_, rfl⟩, ?_, ?_, ?_⟩
  · have : floatValue 0#64 = 0 := by unfold floatValue; rw [if_pos (by decide)]
    rw [this, zero_mul]
  · intro p hp
    have hb : (-128 ≤ p.1 ∧ p.1 < 127) ∧ (-128 ≤ p.2 ∧ p.2 < 127) := by revert p; decide
    rw [h _ hb.1.1 hb.1.2, h _ hb.2.1 hb.2.2, zpow_add₀ (by norm_num : (2 : ℚ) ≠ 0)]
  · have e1 : exponentField (top 0o040440#16) = 130#8 := by decide
    have e2 : (top 0o040440#16).msb = false := by decide
    have e3 : (top 0o040440#16).extractLsb' 0 55 = 0x20000000000000#55 := by decide
    rw [h 0 (by decide) (by decide)]
    unfold floatValue
    rw [if_neg (by rw [e1]; decide), e1, e2, e3]
    norm_num

/-- Source words 127, 128, -127 and -128, and a destination for STEXP. -/
theorem wit_ExponentMoves : (∀ v ∈ [127#16, 128#16, -127#16, -128#16],
      ∃ s1, readOp .word (rr .r0) (two v 0#16 0#16) = .ok v s1 ∧ s1.fiv = false ∧ s1.fiu = false) ∧
    ∃ p s1 b t, place .word ⟨.deferred, .r1⟩ pointers = .ok p s1 ∧ writePlace .word p (BitVec.ofInt 16 (0 - 128)) s1 = .ok b t := by
  refine ⟨fun v h => ?_, _, _, _, _, rfl, rfl⟩
  fin_cases h <;> exact ⟨_, rfl, rfl, rfl⟩

/-- Source words 128 and -128 with the traps enabled. -/
theorem wit_ExponentMoves_traps : ∀ v ∈ [128#16, -128#16], ∃ s1, readOp .word (rr .r3)
      { float 0o3000#16 0#64 0#64 with regs := (small 0#16 0#16 0#16 v 0#16 0#16 []).regs } = .ok v s1 ∧
    s1.fiv = true ∧ s1.fiu = true := by
  intro v h
  fin_cases h <;> exact ⟨_, rfl, rfl, rfl⟩

theorem wit_IntegerConversions : (∃ n s1, readInteger ⟨.deferred, .r1⟩ (float 0o100#16 0#64 0#64) = .ok n s1) ∧
    (∃ n s1, readInteger (rr .r0) (float 0#16 0#64 0#64) = .ok n s1) ∧
    (∃ b t, writeInteger ⟨.deferred, .r1⟩ false (BitVec.ofInt 32 0) pointers = .ok b t) ∧
    (∃ b t, writeInteger ⟨.deferred, .r1⟩ true (BitVec.ofInt 32 (-1)) pointers = .ok b t) ∧
    (∃ sp a s1, effectiveAddress ⟨.autoInc, .pc⟩ 4 pointers = .ok (sp, a) s1 ∧ s1.PlainAt a) ∧
    (∃ sp a s1, effectiveAddress ⟨.autoDec, .r2⟩ 2 pointers = .ok (sp, a) s1 ∧ s1.PlainAt a) ∧
    (∃ sp a s1, effectiveAddress ⟨.autoInc, .r1⟩ 4 pointers = .ok (sp, a) s1 ∧ s1.PlainAt a ∧ s1.PlainAt (a + 2#16)) :=
  ⟨⟨_, _, rfl⟩, ⟨_, _, rfl⟩, ⟨_, _, rfl⟩, ⟨_, _, rfl⟩, ⟨_, _, _, rfl, plain (by decide)⟩, ⟨_, _, _, rfl, plain (by decide)⟩,
   _, _, _, rfl, plain (by decide), plain (by decide)⟩

theorem wit_IntegerConversions_early : (∃ e t, readOp .word ⟨.deferred, .r1⟩ (failing 0) = .error e t) ∧
    (∃ e t, effectiveAddress ⟨.autoIncDeferred, .r1⟩ 4 (failing 0) = .error e t) ∧
    (∃ e t, readInteger ⟨.deferred, .r1⟩ (failing 0) = .error e t) ∧
    ∀ long : Bool, ∃ e t, writeInteger ⟨.deferred, .r1⟩ long (BitVec.ofInt 32 0) (failing 0) = .error e t :=
  ⟨⟨_, _, rfl⟩, ⟨_, _, rfl⟩, ⟨_, _, rfl⟩, fun long => by cases long <;> exact ⟨_, _, rfl⟩⟩

theorem wit_FormatConversions : (∃ v s1, readFloatSource ⟨.deferred, .r1⟩ pointers.precision.other pointers = .ok v s1) ∧
    ∃ p s1 t, floatPlace ⟨.deferred, .r1⟩ pointers.precision.other pointers = .ok p s1 ∧
      writeFloatPlace ⟨.deferred, .r1⟩ pointers.precision.other p 0#64 s1 = .ok () t := ⟨⟨_, _, rfl⟩, _, _, _, rfl, rfl⟩

theorem wit_FormatConversions_early : (∃ e u, readFloatSource ⟨.deferred, .r1⟩ .d (failing 3) = .error e u) ∧
    (∃ e u, floatPlace (rr .pc) .d pointers = .error e u) ∧
    ∃ p s1 e u, floatPlace ⟨.deferred, .r1⟩ .d (failing 3) = .ok p s1 ∧
      writeFloatPlace ⟨.deferred, .r1⟩ .d p 0#64 s1 = .error e u := ⟨⟨_, _, rfl⟩, ⟨_, _, rfl⟩, _, _, _, _, rfl, rfl⟩

end Sys2Proof.Tests
end

section
/-! PROOFS. The bits of a word merged under a mask, and the entries of a register file. -/

namespace Sys2Proof.Machine

/-- Merging replaces exactly the bits of the mask. -/
theorem getLsbD_mergeBits (old mask v : Word) (i : Nat) :
    (mergeBits old mask v).getLsbD i = if mask.getLsbD i then v.getLsbD i else old.getLsbD i := by
  by_cases hi : i < 16
  · unfold mergeBits
    rw [BitVec.getLsbD_or, BitVec.getLsbD_and, BitVec.getLsbD_and, BitVec.getLsbD_not]
    cases mask.getLsbD i <;> simp [hi]
  · simp [BitVec.getLsbD_of_ge _ _ (Nat.le_of_not_lt hi)]

/-- A field that the mask leaves out is kept. -/
theorem extractLsb'_mergeBits_of_unmasked {old mask v : Word} {start len : Nat} (h : mask.extractLsb' start len = 0#len) :
    (mergeBits old mask v).extractLsb' start len = old.extractLsb' start len := by
  refine BitVec.eq_of_getLsbD_eq fun i hi => ?_
  have hm : mask.getLsbD (start + i) = false := by
    simpa [BitVec.getLsbD_extractLsb', hi] using congrArg (fun x => BitVec.getLsbD x i) h
  simp [BitVec.getLsbD_extractLsb', getLsbD_mergeBits, hm]

/-- An entry of a register file after a write of one. -/
theorem get_set {α : Type} {size : Nat} (xs : Vector α size) (i j : Fin size) (x : α) :
    (xs.set i.val x i.isLt).get j = if j = i then x else xs.get j := by
  show (xs.set i.val x i.isLt)[j.val] = if j = i then x else xs[j.val]
  rw [Vector.getElem_set]
  simp only [Fin.ext_iff, eq_comm]

end Sys2Proof.Machine
end

section
/-! PROOFS. The state right after reset and after INIT (10_state R90, R91, R94). -/

namespace Sys2Proof.Machine

/-- An asserted INIT is all that the step acts on (70 R741). -/
theorem step_of_init {s : State} (h : s.sampleInputs.lines.init = true) : step s = .next s.sampleInputs.initialise := by
  unfold step cycle
  rw [if_pos h]

/-- No bit of MMR0 that INIT leaves free is one that it clears. -/
theorem initialise_mmr0 (s : State) : s.initialise.mmu.mmr0 &&& 0o160001#16 = 0#16 := and_mask_unused rfl

/-- Without a request PIRQ reads as zero. -/
theorem pirqWord_zero : pirqWord 0#7 = 0#16 := by decide

/-- Settles O5: storage is empty and every register is zero. -/
theorem resetHasInv : Obligations.ResetHasInv where
  mem_wf := rfl
  mem_bound := fun _ hc => absurd hc List.not_mem_nil
  ps_unused := rfl
  cpuerr_unused := rfl
  ccr_unused := rfl
  pdr_unused := fun i => by
    have hz : State.reset.mmu.pdr.get i = 0#16 := Vector.getElem_replicate i.isLt
    rw [hz]
    rfl
  mmr0_unused := rfl
  mmr3_unused := rfl
  fps_unused := rfl

/-- Settles O6: the step is `State.initialise`, which writes those registers. -/
theorem initClearsRegisters : Obligations.InitClearsRegisters := by
  refine ⟨fun s hinit => ⟨_, step_of_init hinit, ?_⟩, by decide⟩
  exact ⟨BitVec.zero_and, initialise_mmr0 _, rfl, pirqWord_zero, rfl, rfl, rfl, rfl⟩

end Sys2Proof.Machine
end

section
/-! PROOFS. The banks of the general registers (10_state R20 to R24). -/

namespace Sys2Proof.Machine

/-- The same registers under another PS. -/
def State.underPs (s : State) (ps : Word) : State := { s with ps := ps }

/-- Two slots of R0 to R5 are one only for the same register in the same set. -/
theorem gprSlot_eq_iff (s t : State) (n m : Fin 6) :
    (s.gprSlot n).val = (t.gprSlot m).val ↔ s.ps.getLsbD 11 = t.ps.getLsbD 11 ∧ n = m := by
  unfold State.gprSlot
  cases s.ps.getLsbD 11 <;> cases t.ps.getLsbD 11 <;> simp [Fin.ext_iff] <;> omega

/-- R0 to R5 under another PS, after a write under this one. -/
theorem gprN_setGprN_underPs (s : State) (n m : Fin 6) (v ps : Word) :
    ((s.setGprN n v).underPs ps).gprN m =
      if s.ps.getLsbD 11 = ps.getLsbD 11 ∧ n = m then v else (s.underPs ps).gprN m := by
  have hset := Vector.getElem_set (xs := s.regs.gpr) (x := v) (s.gprSlot n).isLt ((s.underPs ps).gprSlot m).isLt
  simp only [gprSlot_eq_iff s (s.underPs ps) n m] at hset
  exact hset

/-- Any register under another PS, after a write of one of R0 to R5 under this one. -/
theorem reg_setReg_underPs (s : State) {r : Reg} (r' : Reg) (v ps : Word) (hsp : r ≠ .sp) (hpc : r ≠ .pc) :
    ((s.setReg r v).underPs ps).reg r' =
      if s.ps.getLsbD 11 = ps.getLsbD 11 ∧ r' = r then v else (s.underPs ps).reg r' := by
  have hstack (n : Fin 6) : ((s.setGprN n v).underPs ps).stackPtr = (s.underPs ps).stackPtr := rfl
  have hmode (n : Fin 6) : ((s.setGprN n v).underPs ps).curMode = (s.underPs ps).curMode := rfl
  have hpc' (n : Fin 6) : ((s.setGprN n v).underPs ps).regs.pc = (s.underPs ps).regs.pc := rfl
  cases r with
  | sp => exact absurd rfl hsp
  | pc => exact absurd rfl hpc
  | _ => cases r' <;> simp [State.reg, State.setReg, gprN_setGprN_underPs, hstack, hmode, hpc']

/-- Any register under another PS, after a write of a mode's stack pointer: the three legal modes have one each. -/
theorem reg_setStackPtr_underPs (s : State) {m : BitVec 2} (r' : Reg) (v ps : Word) (hm : m ≠ 2#2)
    (hps : ps.extractLsb' 14 2 ≠ 2#2) :
    ((s.setStackPtr m v).underPs ps).reg r' =
      if r' = .sp ∧ ps.extractLsb' 14 2 = m then v else (s.underPs ps).reg r' := by
  have hgpr (n : Fin 6) : ((s.setStackPtr m v).underPs ps).gprN n = (s.underPs ps).gprN n :=
    congrArg (fun gpr => gpr.get ((s.underPs ps).gprSlot n)) (s.setStackPtr_gpr m v)
  cases r' with
  | sp =>
    show (s.setStackPtr m v).stackPtr (ps.extractLsb' 14 2) = if _ then v else s.stackPtr (ps.extractLsb' 14 2)
    by_cases h : ps.extractLsb' 14 2 = m
    · rw [if_pos ⟨rfl, h⟩, h, State.stackPtr_setStackPtr]
    · rw [if_neg fun h' => h h'.2, State.stackPtr_setStackPtr_ne s _ _ v (Ne.symm h) hm hps]
  | pc => exact s.setStackPtr_pc m v
  | _ => exact hgpr _

/-- Any register under another PS, after a write of the PC. -/
theorem reg_jump_underPs (s : State) (r' : Reg) (v ps : Word) :
    ((s.jump v).underPs ps).reg r' = if r' = .pc then v else (s.underPs ps).reg r' := by
  cases r' <;> rfl

/-- Settles O10, register by register: R0 to R5 by their slot, the SP by its mode, the PC as it is. -/
theorem registersAreBanked : Obligations.RegistersAreBanked := by
  intro s v ps
  refine ⟨fun r r' hsp hpc hbank => ?_, fun r r' hsp hpc hbank => ?_,
    fun m r' hm hps => reg_setStackPtr_underPs s r' v ps hm hps, fun r' => reg_jump_underPs s r' v ps⟩
  · exact (reg_setReg_underPs s r' v ps hsp hpc).trans (if_neg fun h => hbank h.1)
  · exact (reg_setReg_underPs s r' v ps hsp hpc).trans (by simp only [hbank, true_and]; rfl)

end Sys2Proof.Machine
end

section
/-! PROOFS. Which page registers serve a reference (10_state R50, R59; 20_memory R132, R133). -/

namespace Sys2Proof.Machine

/-- The page number is the top three bits of the virtual address. -/
theorem page_toNat (va : Word) : (va.extractLsb' 13 3).toNat = va.toNat / 8192 := by
  have := va.isLt
  simp only [BitVec.extractLsb'_toNat, Nat.shiftRight_eq_div_pow]
  omega

/-- A mode has sixteen entries, eight for each space. -/
theorem pageSlot_val (m : BitVec 2) (sp : Space) (va : Word) :
    (pageSlot m sp va).val = 16 * (if m = kernel then 0 else if m = supervisor then 1 else 2) +
      (if sp = .d then 8 else 0) + va.toNat / 8192 := by
  rw [← page_toNat]
  cases sp <;> rfl

/-- An instruction reference uses the I registers; a data reference the D registers where the mode's D space is enabled. -/
theorem usedSpace_eq_d_iff (mmr3 : Word) (m : BitVec 2) (sp : Space) :
    usedSpace mmr3 m sp = .d ↔ sp = .d ∧ dEnabled mmr3 m = true := by
  cases sp <;> simp [usedSpace]

/-- Settles O17: the two rules, read at each of the three modes. -/
theorem pageOfReference : Obligations.PageOfReference := by
  intro mmr3 va
  simp only [pageSlot_val, usedSpace_eq_d_iff]
  simp [dEnabled, kernel, supervisor, user]

end Sys2Proof.Machine
end

section
/-! PROOFS. An explicit write of the PS (10_state R33). -/

namespace Sys2Proof.Machine

/-- The PS answers at the top word of the I/O page. -/
theorem deviceAt_ps (s : State) : s.deviceAt 0o17777776#22 = .internal .ps := rfl

/-- With relocation off a word written at the top of virtual memory is an explicit write of the PS. -/
theorem memWrite_ps {s : State} (sp : Space) (m : BitVec 2) (v : Word) (h : s.mmu.mmr0.getLsbD 0 = false) :
    memWrite sp m .word 0o177776#16 v s = .ok true (s.writePs psWritable v) := by
  have ht : translate sp m 0o177776#16 .write s = .ok 0o17777776#22 s := translate_off sp m _ .write h
  unfold memWrite checkAligned
  rw [if_neg (by decide), run_pure_bind, run_bind_ok ht]
  unfold physWrite
  rw [deviceAt_ps]
  rfl

/-- The bits that an explicit write leaves are T and the unused 10:9. -/
theorem psWritable_getLsbD : ∀ i < 16, psWritable.getLsbD i = !decide (i = 4 ∨ i = 9 ∨ i = 10) := by decide

/-- Settles O11: the write is `State.writePs` under the writable mask, read bit by bit. -/
theorem explicitPsWrite : Obligations.ExplicitPsWrite := by
  intro s sp m v hoff
  refine ⟨_, memWrite_ps sp m v hoff, rfl, fun i hi => ?_⟩
  rw [State.writePs_ps, getLsbD_mergeBits, psWritable_getLsbD i hi]
  by_cases h : i = 4 ∨ i = 9 ∨ i = 10 <;> simp [h]

end Sys2Proof.Machine
end

section
/-! PROOFS. Writing consecutive words of plain storage (45 R523; 20_memory R143). -/

namespace Sys2Proof.Machine

/-- `t` is `s` with these words stored from the address on, and nothing else changed. -/
structure StoresWords (s t : State) (a : Word) (ws : List Word) : Prop where
  frame : t = { s with mem := t.mem }
  words : ∀ k (h : k < ws.length), t.word (a + BitVec.ofNat 16 (2 * k)) = ws[k]
  others : ∀ b, (∀ k, k < ws.length → b ≠ (a + BitVec.ofNat 16 (2 * k)).toNat ∧
    b ≠ (a + BitVec.ofNat 16 (2 * k)).toNat + 1) → t.mem.read b = s.mem.read b

/-- A word of storage is its two bytes. -/
theorem State.word_eq_of_read {s t : State} {a : Word} (h0 : t.mem.read a.toNat = s.mem.read a.toNat)
    (h1 : t.mem.read (a.toNat + 1) = s.mem.read (a.toNat + 1)) : t.word a = s.word a := by
  simp only [State.word, Memory.readWord, h0, h1]

/-- An operand in plain storage is written there, and no condition codes with it. -/
theorem writePlace_plain {s : State} {a : Word} (h : s.PlainAt a) (sp : Space) (v : Word) :
    writePlace .word (.mem sp a) v s = .ok false (s.putWord a v) := h.write sp s.curMode v

/-- An even address has no byte in common with a word at a small even distance from it. -/
theorem toNat_ne_of_even {a : Word} (he : a.getLsbD 0 = false) {k : Nat} (hk : k < 32767) (i : Nat) (hi : i < 2) :
    a.toNat + i ≠ (a + BitVec.ofNat 16 (2 * (k + 1))).toNat ∧ a.toNat + i ≠ (a + BitVec.ofNat 16 (2 * (k + 1))).toNat + 1 := by
  have hpar : a.toNat % 2 = 0 := by simpa [BitVec.getLsbD, Nat.testBit_zero] using he
  have := a.isLt
  simp only [BitVec.toNat_add, BitVec.toNat_ofNat]
  omega

/-- The words after the first begin two bytes on. -/
theorem addr_succ (a : Word) (k : Nat) : a + 2#16 + BitVec.ofNat 16 (2 * k) = a + BitVec.ofNat 16 (2 * (k + 1)) := by
  apply BitVec.eq_of_toNat_eq
  simp only [BitVec.toNat_add, BitVec.toNat_ofNat]
  omega

/-- Consecutive words of plain storage are stored one after the other, the first of them left alone by the rest. -/
theorem writeWords_plain (sp : Space) (ws : List Word) (s : State) (a : Word) (hlen : ws.length ≤ 32768)
    (hwf : s.mem.wf = true) (hplain : ∀ k, k < ws.length → s.PlainAt (a + BitVec.ofNat 16 (2 * k))) :
    ∃ t, writeWords sp ws a s = .ok false t ∧ StoresWords s t a ws := by
  induction ws generalizing s a with
  | nil => exact ⟨s, rfl, rfl, fun k h => absurd h (Nat.not_lt_zero k), fun _ _ => rfl⟩
  | cons w ws ih =>
    have hcount (k : Nat) (hk : k < ws.length) : k + 1 < (w :: ws).length := Nat.succ_lt_succ hk
    have hfirst : s.PlainAt a := by simpa using hplain 0 (Nat.zero_lt_succ _)
    have hrest (k : Nat) (hk : k < ws.length) : (s.putWord a w).PlainAt (a + 2#16 + BitVec.ofNat 16 (2 * k)) := by
      rw [addr_succ]
      exact (hplain (k + 1) (hcount k hk)).congr rfl rfl rfl
    obtain ⟨t, hrun, hframe, hwords, hothers⟩ :=
      ih (s.putWord a w) (a + 2#16) (Nat.le_of_succ_le hlen) (Memory.wf_writeWord _ _ hwf) hrest
    have hkept (i : Nat) (hi : i < 2) : t.mem.read (a.toNat + i) = (s.putWord a w).mem.read (a.toNat + i) := by
      refine hothers _ fun k hk => ?_
      rw [addr_succ]
      exact toNat_ne_of_even hfirst.even (by have := hcount k hk; omega) i hi
    refine ⟨t, ?_, ⟨hframe, fun k hk => ?_, fun b hb => ?_⟩⟩
    · unfold writeWords
      rw [run_bind_ok (writePlace_plain hfirst sp w), run_bind_ok hrun]
      rfl
    · cases k with
      | zero =>
        have hw : t.word a = (s.putWord a w).word a := State.word_eq_of_read (hkept 0 (by decide)) (hkept 1 (by decide))
        simpa using hw.trans (Memory.readWord_writeWord a.toNat w hwf)
      | succ k => exact addr_succ a k ▸ hwords k (Nat.lt_of_succ_lt_succ hk)
    · have hne := hb 0 (Nat.zero_lt_succ _)
      simp only [Nat.mul_zero, BitVec.add_zero] at hne
      rw [hothers b fun k hk => addr_succ a k ▸ hb (k + 1) (hcount k hk)]
      exact Memory.read_writeWord_ne w hne.1 hne.2

end Sys2Proof.Machine
end

section
/-! PROOFS. Writing an accumulator and a floating operand in memory (10_state R70; 45 R521 to R524). -/

namespace Sys2Proof.Machine

section
variable (s : State) (n : Fin 6) (fmt : FFormat) (v : BitVec 64)

/-- Writing an accumulator writes the accumulators and counts the draw. -/
theorem setAcc_eq : s.setAcc n fmt v =
    { s with fpu := { s.fpu with ac := (s.setAcc n fmt v).fpu.ac }, draws := (s.setAcc n fmt v).draws } := by
  cases fmt <;> rfl

/-- A single-precision write draws the low half. -/
theorem setAcc_draws : (s.setAcc n fmt v).draws = s.draws + (if fmt = .f then 1 else 0) := by
  cases fmt <;> rfl

/-- The other accumulators stay. -/
theorem acc_setAcc_ne {m : Fin 6} (fmt' : FFormat) (h : m ≠ n) : (s.setAcc n fmt v).acc m fmt' = s.acc m fmt' := by
  have hac : (s.setAcc n fmt v).fpu.ac.get m = s.fpu.ac.get m := by
    cases fmt <;> exact (get_set ..).trans (if_neg h)
  cases fmt' <;> simp only [State.acc, hac]

/-- A double-precision write is read back whole. -/
theorem acc_setAcc_d : (s.setAcc n .d v).acc n .d = v := by
  have hac : (s.setAcc n .d v).fpu.ac.get n = ⟨v.extractLsb' 32 32, v.extractLsb' 0 32⟩ := (get_set ..).trans (if_pos rfl)
  simp only [State.acc, hac, BitVec.extractLsb'_append_extractLsb']

/-- A single-precision write is read back in the high half. -/
theorem acc_setAcc_f : (s.setAcc n .f v).acc n .f = v.extractLsb' 32 32 ++ 0#32 := by
  have hac : (s.setAcc n .f v).fpu.ac.get n = ⟨v.extractLsb' 32 32, Config.freeLong s.draws⟩ :=
    (get_set ..).trans (if_pos rfl)
  simp only [State.acc, hac]

/-- The words of a pattern, most significant first. -/
theorem unpackWords_getElem (k : Nat) (hk : k < (unpackWords v).length) : (unpackWords v)[k] = v.extractLsb' (48 - 16 * k) 16 :=
  match k, hk with
  | 0, _ | 1, _ | 2, _ | 3, _ => rfl

/-- No operand has more words than a pattern. -/
theorem wordsMoved_le (f : Operand) : wordsMoved f fmt.words ≤ (unpackWords v).length := by
  unfold wordsMoved
  split
  · exact Nat.succ_le_succ (Nat.zero_le 3)
  · cases fmt
    · exact Nat.le_add_left 2 2
    · exact Nat.le_refl 4

/-- Writing an operand of plain storage stores the words it moves and nothing else. -/
theorem writeFloatPlace_plain (f : Operand) (sp : Space) (a : Word) (hwf : s.mem.wf = true)
    (hplain : ∀ k, k < wordsMoved f fmt.words → s.PlainAt (a + BitVec.ofNat 16 (2 * k))) :
    ∃ t, writeFloatPlace f fmt (.mem sp a) v s = .ok () t ∧
      StoresWords s t a ((unpackWords v).take (wordsMoved f fmt.words)) := by
  have hlen : ((unpackWords v).take (wordsMoved f fmt.words)).length = wordsMoved f fmt.words :=
    List.length_take_of_le (wordsMoved_le fmt v f)
  have hle : wordsMoved f fmt.words ≤ 4 := wordsMoved_le fmt v f
  obtain ⟨t, hrun, hstored⟩ := writeWords_plain sp ((unpackWords v).take (wordsMoved f fmt.words)) s a
    (by omega) hwf (fun k hk => hplain k (hlen ▸ hk))
  exact ⟨t, run_bind_ok hrun, hstored⟩

end

/-- A single-precision operand is written as two references, each in the mode current at its time. -/
theorem writeFloatPlace_f {s t u : State} {f : Operand} {sp : Space} {a : Word} {b b' : Bool} (v : BitVec 64)
    (hf : ¬(f.reg = .pc ∧ (f.mode = .autoInc ∨ f.mode = .autoDec)))
    (h1 : memWrite sp s.curMode .word a (v.extractLsb' 48 16) s = .ok b t)
    (h2 : memWrite sp t.curMode .word (a + 2#16) (v.extractLsb' 32 16) t = .ok b' u) :
    writeFloatPlace f .f (.mem sp a) v s = .ok () u := by
  have hmoved : wordsMoved f FFormat.f.words = 2 := if_neg hf
  have hrun : writeWords sp [v.extractLsb' 48 16, v.extractLsb' 32 16] a s = .ok (b || (b' || false)) u := by
    unfold writeWords
    rw [run_bind_ok (show writePlace .word (.mem sp a) _ s = _ from h1)]
    unfold writeWords
    rw [run_bind, run_bind_ok (show writePlace .word (.mem sp (a + 2#16)) _ t = _ from h2)]
    rfl
  unfold writeFloatPlace writeLongAt
  rw [hmoved]
  exact run_bind_ok hrun

/-- Settles O52: an accumulator is one entry of the register file; an operand in plain memory is the list of the words it moves,
stored by `writeWords_plain`. -/
theorem floatDestinations : Obligations.FloatDestinations := by
  intro s n fmt v
  refine ⟨?_, ?_, fun m fmt' hm => acc_setAcc_ne s n fmt v fmt' hm, setAcc_eq s n fmt v, ?_,
    fun f sp a b b' t u hf h1 h2 => writeFloatPlace_f v hf h1 h2⟩
  · rintro rfl
    exact ⟨acc_setAcc_d s n v, setAcc_draws s n .d v⟩
  · rintro rfl
    exact ⟨acc_setAcc_f s n v, setAcc_draws s n .f v⟩
  · intro f sp a words hwords hwf hplain
    have hmoved : wordsMoved f fmt.words = words := hwords.symm
    obtain ⟨t, hrun, hframe, hstored, hothers⟩ := writeFloatPlace_plain s fmt v f sp a hwf (hmoved ▸ hplain)
    have hle := wordsMoved_le fmt v f
    rw [List.length_take_of_le hle, hmoved] at hothers
    refine ⟨t, hrun, hframe, fun k hk => ?_, hothers⟩
    rw [hstored k (by rw [List.length_take_of_le hle, hmoved]; exact hk), List.getElem_take, unpackWords_getElem]

end Sys2Proof.Machine
end

section
/-! PROOFS. The registers inside the chip: where they answer (10_state R45; 20_memory R121, R122). -/

namespace Sys2Proof.Machine

/-! ## The two bytes of a word -/

/-- A word address drops bit 0. -/
theorem getLsbD_wordAddr (a : PAddr) (i : Nat) : (wordAddr a).getLsbD i = (a.getLsbD i && !decide (i = 0)) := by
  simp only [wordAddr, BitVec.getLsbD_and, BitVec.getLsbD_not, BitVec.getLsbD_one]
  by_cases hi : i < 22
  · simp [hi]
  · simp [BitVec.getLsbD_of_ge a i (Nat.le_of_not_lt hi)]

/-- A word address is even. -/
theorem wordAddr_even_bit (a : PAddr) : (wordAddr a).getLsbD 0 = false := by
  rw [getLsbD_wordAddr]
  exact Bool.and_false _

section
variable {a : PAddr} (he : a.getLsbD 0 = false)
include he

/-- The odd byte of a word sets bit 0. -/
theorem getLsbD_odd (i : Nat) : (a + 1#22).getLsbD i = (a.getLsbD i || decide (i = 0)) := by
  have hdisjoint : a &&& 1#22 = 0#22 := by
    refine BitVec.eq_of_getLsbD_eq fun j _ => ?_
    rw [BitVec.getLsbD_and, BitVec.getLsbD_one, BitVec.getLsbD_zero]
    cases j with
    | zero => rw [he]; rfl
    | succ j => simp
  rw [BitVec.add_eq_or_of_and_eq_zero a 1#22 hdisjoint, BitVec.getLsbD_or, BitVec.getLsbD_one]
  simp

/-- An odd byte address. -/
theorem getLsbD_odd_zero : (a + 1#22).getLsbD 0 = true := by
  rw [getLsbD_odd he]
  exact Bool.or_true _

theorem wordAddr_of_even : wordAddr a = a := by
  refine BitVec.eq_of_getLsbD_eq fun i _ => ?_
  rw [getLsbD_wordAddr]
  cases i with
  | zero => rw [he]; rfl
  | succ i => simp

theorem wordAddr_odd : wordAddr (a + 1#22) = a := by
  refine BitVec.eq_of_getLsbD_eq fun i _ => ?_
  rw [getLsbD_wordAddr, getLsbD_odd he]
  cases i with
  | zero => rw [he]; rfl
  | succ i => simp

/-- A reference to the even byte uses the low lane, one to the odd byte the high lane. -/
theorem writeMask_even : writeMask .byte a = 0o377#16 := by simp only [writeMask, he]; rfl

theorem writeMask_odd : writeMask .byte (a + 1#22) = 0o177400#16 := by simp only [writeMask, getLsbD_odd_zero he]; rfl

theorem writeLane_even (v : Word) : writeLane .byte a v = v := by simp only [writeLane, he]; rfl

theorem writeLane_odd (v : Word) : writeLane .byte (a + 1#22) v = v <<< 8 := by
  simp only [writeLane, getLsbD_odd_zero he]; rfl

theorem selectByte_even (w : Word) : (selectByte a w).setWidth 16 = w &&& 0o377#16 := by
  have hlow : selectByte a w = w.extractLsb' 0 8 := by simp only [selectByte, he]; rfl
  rw [hlow]
  refine BitVec.eq_of_getLsbD_eq fun i hi => ?_
  have hmask : ∀ i < 16, (0o377#16).getLsbD i = decide (i < 8) := by decide
  rw [BitVec.getLsbD_setWidth, BitVec.getLsbD_extractLsb', BitVec.getLsbD_and, hmask i hi]
  simp [hi, Bool.and_comm]

theorem selectByte_odd (w : Word) : (selectByte (a + 1#22) w).setWidth 16 = w >>> 8 := by
  have hhigh : selectByte (a + 1#22) w = w.extractLsb' 8 8 := by simp only [selectByte, getLsbD_odd_zero he]; rfl
  rw [hhigh]
  refine BitVec.eq_of_toNat_eq ?_
  have := w.isLt
  simp only [BitVec.toNat_setWidth, BitVec.extractLsb'_toNat, BitVec.toNat_ushiftRight, Nat.shiftRight_eq_div_pow]
  omega

end

/-! ## The address table -/

/-! Each block of 32 page registers is in the table. -/

theorem kernelPageReg_mem_table : ∀ low : BitVec 5,
    (0o177723#16 ++ low ++ 0#1, pageReg 0 (0o177723#16 ++ low ++ 0#1)) ∈ systemRegisterTable := by decide

theorem supervisorPageReg_mem_table : ∀ low : BitVec 5,
    (0o177722#16 ++ low ++ 0#1, pageReg 1 (0o177722#16 ++ low ++ 0#1)) ∈ systemRegisterTable := by decide

theorem userPageReg_mem_table : ∀ low : BitVec 5,
    (0o177776#16 ++ low ++ 0#1, pageReg 2 (0o177776#16 ++ low ++ 0#1)) ∈ systemRegisterTable := by decide

/-- The table lists even addresses. -/
theorem even_of_mem_table : ∀ p ∈ systemRegisterTable, p.1.getLsbD 0 = false := by decide

/-- Every register of the table is found at its address. -/
theorem intRegAt_of_mem_table : ∀ p ∈ systemRegisterTable, intRegAt p.1 = some p.2 := by decide

/-- An even address in a block of page registers. -/
theorem eq_append_of_block {a : PAddr} {block : BitVec 16} (he : a.getLsbD 0 = false) (hb : a.extractLsb' 6 16 = block) :
    a = block ++ a.extractLsb' 1 5 ++ 0#1 := by
  have hlow : a.extractLsb' 0 1 = 0#1 := by
    refine BitVec.eq_of_getLsbD_eq fun i hi => ?_
    obtain rfl : i = 0 := by omega
    exact (BitVec.getLsbD_extractLsb' ..).trans he
  rw [← hb, ← hlow, BitVec.extractLsb'_append_extractLsb'_eq_extractLsb' (by rfl),
    BitVec.extractLsb'_append_extractLsb'_eq_extractLsb' (by rfl), BitVec.extractLsb'_eq_self]

/-- One step through a chain of tests. -/
theorem of_ite_eq_some {α : Type} {c : Prop} [Decidable c] {x y : α} {rest : Option α}
    (h : (if c then some x else rest) = some y) : (c ∧ x = y) ∨ rest = some y := by
  by_cases hc : c
  · rw [if_pos hc] at h
    exact .inl ⟨hc, Option.some.inj h⟩
  · rw [if_neg hc] at h
    exact .inr h

/-- An even address has a register exactly where the table says so: nine single registers and three blocks. -/
theorem intRegAt_eq_some_iff {a : PAddr} (he : a.getLsbD 0 = false) (r : IntReg) :
    intRegAt a = some r ↔ (a, r) ∈ systemRegisterTable := by
  refine ⟨fun h => ?_, intRegAt_of_mem_table (a, r)⟩
  unfold intRegAt at h
  iterate 9
    obtain ⟨rfl, rfl⟩ | h := of_ite_eq_some h
    · decide
  obtain ⟨hblock, rfl⟩ | h := of_ite_eq_some h
  · exact eq_append_of_block he hblock ▸ userPageReg_mem_table _
  obtain ⟨hblock, rfl⟩ | h := of_ite_eq_some h
  · exact eq_append_of_block he hblock ▸ supervisorPageReg_mem_table _
  obtain ⟨hblock, rfl⟩ | h := of_ite_eq_some h
  · exact eq_append_of_block he hblock ▸ kernelPageReg_mem_table _
  · cases h

/-- What answers is inside the chip exactly where the table says so (20_memory R104). -/
theorem deviceAt_eq_internal_iff (s : State) (a : PAddr) (r : IntReg) :
    s.deviceAt a = .internal r ↔ (wordAddr a, r) ∈ systemRegisterTable := by
  rw [← intRegAt_eq_some_iff (wordAddr_even_bit a)]
  unfold State.deviceAt
  cases intRegAt (wordAddr a) with
  | some r' => simp
  | none =>
    simp only [reduceCtorEq, iff_false]
    split
    · exact Device.noConfusion
    · split <;> exact Device.noConfusion

/-! ## References to them -/

/-- A write that stays inside the chip. -/
theorem physWrite_internal {s : State} {a : PAddr} {r : IntReg} (h : s.deviceAt a = .internal r) (sz : Size) (v : Word) :
    physWrite sz a v s =
      .ok (decide (r = .ps) && (writeMask sz a).getLsbD 0) (s.writeInt r (writeMask sz a) (writeLane sz a v)) := by
  unfold physWrite
  rw [h]

/-- A read that stays inside the chip. -/
theorem physReadWord_internal {s : State} {a : PAddr} {r : IntReg} (h : s.deviceAt a = .internal r) :
    physReadWord a s = readInt r s := by
  unfold physReadWord
  rw [h]

theorem physRead_word_ok {s t : State} {a : PAddr} {w : Word} (h : physReadWord a s = .ok w t) :
    physRead .word a s = .ok w t := run_bind_ok h

theorem physRead_byte_ok {s t : State} {a : PAddr} {w : Word} (h : physReadWord a s = .ok w t) :
    physRead .byte a s = .ok ((selectByte a w).setWidth 16) t := run_bind_ok h

section
variable {s : State} {a : PAddr} {r : IntReg} (h : (a, r) ∈ systemRegisterTable)
include h

theorem deviceAt_table : s.deviceAt a = .internal r :=
  (deviceAt_eq_internal_iff s a r).2 ((wordAddr_of_even (even_of_mem_table _ h)).symm ▸ h)

theorem deviceAt_table_odd : s.deviceAt (a + 1#22) = .internal r :=
  (deviceAt_eq_internal_iff s _ r).2 ((wordAddr_odd (even_of_mem_table _ h)).symm ▸ h)

/-- A write goes to the lanes of its size; only one that has the low lane of the PS loads its codes (10_state R34, R35). -/
theorem physWrite_table (v : Word) :
    physWrite .word a v s = .ok (decide (r = .ps)) (s.writeInt r 0o177777#16 v) ∧
    physWrite .byte a v s = .ok (decide (r = .ps)) (s.writeInt r 0o377#16 v) ∧
    physWrite .byte (a + 1#22) v s = .ok false (s.writeInt r 0o177400#16 (v <<< 8)) := by
  have he : a.getLsbD 0 = false := even_of_mem_table _ h
  refine ⟨?_, ?_, ?_⟩
  · rw [physWrite_internal (deviceAt_table h)]
    simp [writeMask, writeLane]
  · rw [physWrite_internal (deviceAt_table h), writeMask_even he, writeLane_even he]
    simp
  · rw [physWrite_internal (deviceAt_table_odd h), writeMask_odd he, writeLane_odd he]
    simp

/-- A read gives the register, or the byte of it (20_memory R121). -/
theorem physRead_table {w : Word} {t : State} (hr : readInt r s = .ok w t) :
    physRead .word a s = .ok w t ∧ physRead .byte a s = .ok (w &&& 0o377#16) t ∧
    physRead .byte (a + 1#22) s = .ok (w >>> 8) t := by
  have he : a.getLsbD 0 = false := even_of_mem_table _ h
  have heven := (physReadWord_internal (deviceAt_table h)).trans hr
  have hodd := (physReadWord_internal (deviceAt_table_odd h)).trans hr
  exact ⟨physRead_word_ok heven, selectByte_even he w ▸ physRead_byte_ok heven,
    selectByte_odd he w ▸ physRead_byte_ok hodd⟩

end

end Sys2Proof.Machine
end

section
/-! PROOFS. The registers inside the chip: what reading gives and what writing leaves (10_state R46 to R63). -/

namespace Sys2Proof.Machine

/-! ## PIRQ (10_state R46) -/

/-- The encoded level is the highest request, counted from 1. -/
theorem pirqLevel_toNat : ∀ req : BitVec 7,
    (pirqLevel req).toNat = if req.toNat = 0 then 0 else req.toNat.log2 + 1 := by decide

/-- PIRQ reads as its requests, and twice their level. -/
theorem pirqWord_fields (req : BitVec 7) : (pirqWord req).toNat = req.toNat * 512 + (pirqLevel req).toNat * 34 := by
  simp only [pirqWord, Laws.toNat_append_eq, BitVec.toNat_ofNat]
  omega

/-- PIRQ as it reads, in numbers. -/
theorem pirqWord_toNat (req : BitVec 7) :
    (pirqWord req).toNat = req.toNat * 512 + (if req.toNat = 0 then 0 else (req.toNat.log2 + 1) * 34) := by
  rw [pirqWord_fields, pirqLevel_toNat]
  split <;> rfl

/-- The requests of PIRQ as it reads. -/
theorem extractLsb'_pirqWord (req : BitVec 7) : (pirqWord req).extractLsb' 9 7 = req := by
  have hreq := req.isLt
  have hlevel := (pirqLevel req).isLt
  have hrequests : (req.toNat * 512 + (pirqLevel req).toNat * 34) / 2 ^ 9 = req.toNat := by omega
  refine BitVec.eq_of_toNat_eq ?_
  rw [BitVec.extractLsb'_toNat, pirqWord_fields, Nat.shiftRight_eq_div_pow, hrequests, Nat.mod_eq_of_lt hreq]

/-- The requests after a write are the written bits 15:9 of PIRQ as it reads. -/
theorem writeInt_pirq_toNat (s : State) (mask v : Word) :
    (s.writeInt .pirq mask v).sys.pirq.toNat = (mergeBits (pirqWord s.sys.pirq) (mask &&& 0o177000#16) v).toNat / 512 := by
  have hsame : (mergeBits (s.sys.pirq ++ 0#9) mask v).extractLsb' 9 7 =
      (mergeBits (pirqWord s.sys.pirq) (mask &&& 0o177000#16) v).extractLsb' 9 7 := by
    refine BitVec.eq_of_getLsbD_eq fun i hi => ?_
    have hreads := congrArg (fun x => BitVec.getLsbD x i) (extractLsb'_pirqWord s.sys.pirq)
    have hstored : (s.sys.pirq ++ 0#9).getLsbD (9 + i) = s.sys.pirq.getLsbD i := by
      rw [BitVec.getLsbD_append, if_neg (by omega), Nat.add_sub_cancel_left]
    have hmask : ∀ i < 7, (0o177000#16).getLsbD (9 + i) = true := by decide
    simp only [BitVec.getLsbD_extractLsb', hi, decide_true, Bool.true_and] at hreads ⊢
    rw [getLsbD_mergeBits, getLsbD_mergeBits, BitVec.getLsbD_and, hmask i hi, Bool.and_true, hstored, hreads]
  have hbound := (mergeBits (pirqWord s.sys.pirq) (mask &&& 0o177000#16) v).isLt
  show ((mergeBits (s.sys.pirq ++ 0#9) mask v).extractLsb' 9 7).toNat = _
  rw [hsame, BitVec.extractLsb'_toNat, Nat.shiftRight_eq_div_pow]
  omega

/-! ## The hit/miss register (10_state R63) -/

/-- The history is bits 5:0 of the register. -/
theorem setWidth_hitMiss_unused (history : BitVec 6) : history.setWidth 16 &&& 0o177700#16 = 0#16 := by
  revert history
  decide

/-! ## MMR0 (10_state R55, R56) -/

theorem frozen_eq_false_iff (s : State) : s.frozen = false ↔ s.mmu.mmr0.extractLsb' 13 3 = 0#3 := by
  simp [State.frozen]

theorem frozen_eq_true_iff (s : State) : s.frozen = true ↔ s.mmu.mmr0.extractLsb' 13 3 ≠ 0#3 := by
  simp [State.frozen]

/-- Reading MMR0 gives free bits 6:1 while nothing freezes them. -/
theorem readInt_mmr0 (s : State) : ∃ free t,
    readInt .mmr0 s = .ok (if s.mmu.mmr0.extractLsb' 13 3 = 0#3 then mergeBits s.mmu.mmr0 mmr0Status free
      else s.mmu.mmr0) t ∧ t = { s with draws := t.draws } := by
  by_cases hz : s.mmu.mmr0.extractLsb' 13 3 = 0#3
  · refine ⟨Config.freeWord s.draws, { s with draws := s.draws + 1 }, ?_, rfl⟩
    simp only [readInt, (frozen_eq_false_iff s).2 hz, if_pos hz]
    rfl
  · refine ⟨0#16, s, ?_, rfl⟩
    simp only [readInt, (frozen_eq_true_iff s).2 hz, if_neg hz]
    rfl

/-- Writing MMR0 changes it, discards the prefetched word and may draw. -/
theorem writeMmr0_eq (s : State) (mask v : Word) : s.writeMmr0 mask v =
    { s with mmu := { s.mmu with mmr0 := (s.writeMmr0 mask v).mmu.mmr0 }, flow := { s.flow with prefetchFault := true },
             draws := (s.writeMmr0 mask v).draws } := by
  unfold State.writeMmr0
  dsimp only
  split <;> rfl

/-- MMR0 takes bits 15:13 and 0; the write that freezes it leaves free bits 6:1. -/
theorem writeMmr0_mmr0 (s : State) (mask v : Word) : ∃ free, (s.writeMmr0 mask v).mmu.mmr0 =
    if s.mmu.mmr0.extractLsb' 13 3 = 0#3 ∧ (s.writeMmr0 mask v).mmu.mmr0.extractLsb' 13 3 ≠ 0#3 then
      mergeBits (mergeBits s.mmu.mmr0 (mask &&& 0o160001#16) v) mmr0Status free
    else mergeBits s.mmu.mmr0 (mask &&& 0o160001#16) v := by
  have hstatus (old free : Word) : (mergeBits old mmr0Status free).extractLsb' 13 3 = old.extractLsb' 13 3 :=
    extractLsb'_mergeBits_of_unmasked (by decide)
  refine ⟨Config.freeWord s.draws, ?_⟩
  by_cases hs : s.mmu.mmr0.extractLsb' 13 3 = 0#3
  · by_cases ht : (mergeBits s.mmu.mmr0 (mask &&& 0o160001#16) v).extractLsb' 13 3 = 0#3
    · simp [State.writeMmr0, State.frozen, hs, ht]
    · simp [State.writeMmr0, State.frozen, hs, ht, hstatus]
  · simp [State.writeMmr0, State.frozen, hs]

/-! ## The page registers (10_state R51 to R53) -/

/-- A write to a PAR stores its bits and clears W of the page's PDR. -/
theorem writeInt_par (s : State) (i : Fin 48) (mask v : Word) :
    (s.writeInt (.par i) mask v).mmu.par.get i = mergeBits (s.mmu.par.get i) mask v ∧
    (s.writeInt (.par i) mask v).mmu.pdr.get i = s.mmu.pdr.get i &&& ~~~pdrW ∧
    ∀ j, j ≠ i → (s.writeInt (.par i) mask v).mmu.par.get j = s.mmu.par.get j ∧
      (s.writeInt (.par i) mask v).mmu.pdr.get j = s.mmu.pdr.get j :=
  ⟨(get_set ..).trans (if_pos rfl), (get_set ..).trans (if_pos rfl),
    fun _ hj => ⟨(get_set ..).trans (if_neg hj), (get_set ..).trans (if_neg hj)⟩⟩

/-- A write to a PDR stores its writable bits and clears W. -/
theorem writeInt_pdr (s : State) (i : Fin 48) (mask v : Word) :
    (s.writeInt (.pdr i) mask v).mmu.pdr.get i = mergeBits (s.mmu.pdr.get i) (mask &&& pdrWritable) v &&& ~~~pdrW ∧
    ∀ j, j ≠ i → (s.writeInt (.pdr i) mask v).mmu.pdr.get j = s.mmu.pdr.get j :=
  ⟨(get_set ..).trans (if_pos rfl), fun _ hj => (get_set ..).trans (if_neg hj)⟩

/-! ## MMR1 (10_state R57) -/

/-- A step is recorded in the low byte while that is zero, in the high byte after that, and not while MMR0 is frozen. -/
theorem recordMmr1_mmr1_toNat (r : BitVec 3) (n : BitVec 5) (s : State) : (recordMmr1 r n s).mmu.mmr1.toNat =
    if s.mmu.mmr0.extractLsb' 13 3 ≠ 0#3 then s.mmu.mmr1.toNat
    else if s.mmu.mmr1.toNat % 256 = 0 then s.mmu.mmr1.toNat / 256 * 256 + (n.toNat * 8 + r.toNat)
    else (n.toNat * 8 + r.toNat) * 256 + s.mmu.mmr1.toNat % 256 := by
  have hlow : (s.mmu.mmr1.extractLsb' 0 8).toNat = s.mmu.mmr1.toNat % 256 := by
    simp [BitVec.extractLsb'_toNat]
  have hhigh : (s.mmu.mmr1.extractLsb' 8 8).toNat = s.mmu.mmr1.toNat / 256 := by
    have := s.mmu.mmr1.isLt
    simp only [BitVec.extractLsb'_toNat, Nat.shiftRight_eq_div_pow]
    omega
  have hzero : s.mmu.mmr1.extractLsb' 0 8 = 0#8 ↔ s.mmu.mmr1.toNat % 256 = 0 := by
    rw [← hlow]
    exact BitVec.toNat_inj.symm
  by_cases hf : s.mmu.mmr0.extractLsb' 13 3 = 0#3
  · have hfrozen := (frozen_eq_false_iff s).2 hf
    rw [if_neg (not_not_intro hf)]
    by_cases hz : s.mmu.mmr1.extractLsb' 0 8 = 0#8
    · rw [if_pos (hzero.1 hz)]
      simp only [recordMmr1, hfrozen, if_pos hz, Laws.toNat_append_eq, hhigh, Bool.false_eq_true, if_false]
      omega
    · rw [if_neg (mt hzero.2 hz)]
      simp only [recordMmr1, hfrozen, if_neg hz, Laws.toNat_append_eq, hlow, Bool.false_eq_true, if_false]
      omega
  · rw [if_pos hf, recordMmr1, if_pos ((frozen_eq_true_iff s).2 hf)]

/-! ## The statement -/

/-- Settles O12: the address table, then each register's read and write. -/
theorem systemRegisterWrites : Obligations.SystemRegisterWrites := by
  intro s v i
  refine ⟨deviceAt_eq_internal_iff s, fun a r h => ?_, ?_, ?_, pirqWord_toNat s.sys.pirq, fun mask _ => ?_,
    readInt_mmr0 s, fun r n => ⟨_, rfl, recordMmr1_eq r n s, recordMmr1_mmr1_toNat r n s⟩⟩
  · obtain ⟨hword, heven, hodd⟩ := physWrite_table (s := s) h v
    exact ⟨hword, heven, hodd, fun w t hr => physRead_table h hr⟩
  · simp only [List.forall_mem_cons]
    exact ⟨rfl, rfl, rfl, rfl, rfl, rfl, rfl, rfl, rfl, fun _ h => absurd h List.not_mem_nil⟩
  · exact ⟨_, _, rfl, setWidth_hitMiss_unused _, rfl⟩
  · refine ⟨⟨_, rfl, ?_, rfl⟩, rfl, rfl, rfl, rfl, rfl, rfl, rfl, ?_, ?_, ?_⟩
    · rw [pirqWord_toNat, writeInt_pirq_toNat]
      rfl
    · obtain ⟨free, hfree⟩ := writeMmr0_mmr0 s mask v
      exact ⟨_, free, rfl, hfree, writeMmr0_eq s mask v⟩
    · obtain ⟨hpar, hpdr, hothers⟩ := writeInt_par s i mask v
      have hall : mask = mask &&& 0o177777#16 := BitVec.and_allOnes.symm
      exact ⟨_, rfl, hpar.trans (congrArg (mergeBits (s.mmu.par.get i) · v) hall), hpdr, hothers⟩
    · obtain ⟨hpdr, hothers⟩ := writeInt_pdr s i mask v
      exact ⟨_, rfl, hpdr, rfl, hothers⟩

end Sys2Proof.Machine
end

section
/-! PROOFS. Every step keeps the machine's invariant (20_memory R100; 10_state R31, R48, R52, R55, R59, R62, R71). -/

namespace Sys2Proof.Machine

theorem KeepsInv.floatException (code : BitVec 4) : KeepsInv (Machine.update fun s => s.floatException code) :=
  update fun _ h => h.floatException code

/-- Every instruction's meaning completes one body, which keeps the invariant: the instructions are grouped by the operation
they share. -/
theorem exec_eq_complete_keepsInv (i : Instr) : ∃ body, KeepsInv body ∧ ∀ s, exec i s = complete body s := by
  cases i with
  -- processor control
  | halt => exact ⟨_, .halt, fun _ => rfl⟩
  | wait => exact ⟨_, .waitInterrupt, fun _ => rfl⟩
  | reset => exact ⟨_, .resetBus, fun _ => rfl⟩
  | spl => exact ⟨_, .setPriorityLevel _, fun _ => rfl⟩
  | mfpt => exact ⟨_, .update fun _ h => h.setReg .r0 5#16, fun _ => rfl⟩
  | ccop | nop | clc | clv | clz | cln | ccc | sec | sev | sez | sen | scc => exact ⟨_, .ccOperator _ _, fun _ => rfl⟩
  | mfpi | mfpd => exact ⟨_, .moveFromPrevious _ _, fun _ => rfl⟩
  | mtpi | mtpd => exact ⟨_, .moveToPrevious _ _, fun _ => rfl⟩
  -- program control
  | emt | trap | bpt | iot | reserved => exact ⟨_, .raise _, fun _ => rfl⟩
  | rti => exact ⟨_, .returnInterrupt, fun _ => rfl⟩
  | rtt => exact ⟨_, .returnFromTrap, fun _ => rfl⟩
  | jmp => exact ⟨_, .jumpTo _, fun _ => rfl⟩
  | jsr => exact ⟨_, .jumpSubroutine _ _, fun _ => rfl⟩
  | rts => exact ⟨_, .returnSubroutine _, fun _ => rfl⟩
  | mark => exact ⟨_, .mark _, fun _ => rfl⟩
  | csm => exact ⟨_, .callSupervisor _, fun _ => rfl⟩
  | sob => exact ⟨_, .subtractAndBranch _ _, fun _ => rfl⟩
  | br | bne | beq | bge | blt | bgt | ble | bpl | bmi | bhi | blos | bvc | bvs | bcc | bcs | bhis | blo =>
    exact ⟨_, .branchIf _ _, fun _ => rfl⟩
  -- one operand
  | clr | clrb | sxt => exact ⟨_, .storeOperand _ _ _, fun _ => rfl⟩
  | tst | tstb => exact ⟨_, .testOperand _ _ _, fun _ => rfl⟩
  | com | inc | dec | neg | adc | sbc | ror | rol | asr | asl
  | comb | incb | decb | negb | adcb | sbcb | rorb | rolb | asrb | aslb => exact ⟨_, .modifyOperand _ _ _, fun _ => rfl⟩
  | swab => exact ⟨_, .swapBytes _, fun _ => rfl⟩
  | tstset => exact ⟨_, .testAndSet _, fun _ => rfl⟩
  | wrtlck => exact ⟨_, .writeLocked _, fun _ => rfl⟩
  | mfps => exact ⟨_, .moveFromPs _, fun _ => rfl⟩
  | mtps => exact ⟨_, .moveToPs _, fun _ => rfl⟩
  -- two operands
  | mov => exact ⟨_, .moveDouble _ _ _, fun _ => rfl⟩
  | movb => exact ⟨_, .moveByte _ _, fun _ => rfl⟩
  | cmp | cmpb | bit | bitb => exact ⟨_, .compareDouble _ _ _ _, fun _ => rfl⟩
  | add | sub | bic | bicb | bis | bisb | xor => exact ⟨_, .modifyDouble _ _ _ _, fun _ => rfl⟩
  | mul => exact ⟨_, .multiply _ _, fun _ => rfl⟩
  | div => exact ⟨_, .divide _ _, fun _ => rfl⟩
  | ash => exact ⟨_, .shiftRegister _ _, fun _ => rfl⟩
  | ashc => exact ⟨_, .shiftPair _ _, fun _ => rfl⟩
  -- floating point
  | cfcc => exact ⟨_, .copyFloatCc, fun _ => rfl⟩
  | setf | seti | setd | setl => exact ⟨_, .setFloatMode _ _ rfl, fun _ => rfl⟩
  | illegalFloat => exact ⟨_, .floatException _, fun _ => rfl⟩
  | ldfps => exact ⟨_, .loadFps _, fun _ => rfl⟩
  | stfps => exact ⟨_, .storeFps _, fun _ => rfl⟩
  | stst => exact ⟨_, .storeStatus _, fun _ => rfl⟩
  | clrf | clrd => exact ⟨_, .clearFloat _, fun _ => rfl⟩
  | tstf | tstd => exact ⟨_, .testFloat _, fun _ => rfl⟩
  | absf | absd | negf | negd => exact ⟨_, .modifyFloat _ _, fun _ => rfl⟩
  | ldf | ldd => exact ⟨_, .loadFloat _ _, fun _ => rfl⟩
  | stf | std => exact ⟨_, .storeFloat _ _, fun _ => rfl⟩
  | addf | addd | subf | subd | mulf | muld => exact ⟨_, .arithFloat _ _ _, fun _ => rfl⟩
  | divf | divd => exact ⟨_, .divideFloat _ _, fun _ => rfl⟩
  | cmpf | cmpd => exact ⟨_, .compareFloat _ _, fun _ => rfl⟩
  | modf | modd => exact ⟨_, .modFloat _ _, fun _ => rfl⟩
  | ldexp => exact ⟨_, .loadExp _ _, fun _ => rfl⟩
  | stexp => exact ⟨_, .storeExp _ _, fun _ => rfl⟩
  | ldcif | ldclf | ldcid | ldcld => exact ⟨_, .loadInteger _ _, fun _ => rfl⟩
  | stcfi | stcfl | stcdi | stcdl => exact ⟨_, .storeInteger _ _, fun _ => rfl⟩
  | ldcdf | ldcfd => exact ⟨_, .loadConvert _ _, fun _ => rfl⟩
  | stcfd | stcdf => exact ⟨_, .storeConvert _ _, fun _ => rfl⟩

/-- The instructions' meanings keep the invariant, whatever their body raises. -/
theorem exec_keepsInv : RunKeepsInv exec := by
  intro i s t hs hnext
  obtain ⟨body, hkeeps, hexec⟩ := exec_eq_complete_keepsInv i
  exact inv_of_complete hkeeps hs ((hexec s).symm.trans hnext)

/-- Settles O4: what a step does around an instruction keeps the invariant, and so does the instruction's meaning. -/
theorem stepKeepsInv : Obligations.StepKeepsInv := fun _ _ => cycle_inv exec_keepsInv

end Sys2Proof.Machine
end

section
/-! PROOFS. Translating a virtual address (20_memory R133 to R140). -/

namespace Sys2Proof.Machine

/-! ## With relocation off -/

/-- 16-bit mapping in numbers: the I/O page is at the top of physical memory. -/
theorem map16_toNat (va : Word) :
    (map16 va).toNat = if va.toNat < 0o160000 then va.toNat else 0o17600000 + va.toNat := by
  have hva := va.isLt
  have hlow : va < 0o160000#16 ↔ va.toNat < 0o160000 := Iff.rfl
  unfold map16
  simp only [hlow]
  split
  · rw [BitVec.toNat_setWidth]
    omega
  · simp only [BitVec.toNat_add, BitVec.toNat_setWidth, BitVec.toNat_ofNat]
    omega

/-- Settles O15: the reference goes through `map16` and touches nothing. -/
theorem sixteenBitMapping : Obligations.SixteenBitMapping :=
  fun _ sp m va acc hoff => ⟨map16 va, translate_off sp m va acc hoff, map16_toNat va⟩

/-! ## Relocation in numbers -/

/-- The block number of a virtual address. -/
theorem blockNumber_toNat (va : Word) : (va.extractLsb' 6 7).toNat = va.toNat / 64 % 128 := by
  simp only [BitVec.extractLsb'_toNat, Nat.shiftRight_eq_div_pow]

/-- The offset of a virtual address in its block. -/
theorem blockOffset_toNat (va : Word) : (va.extractLsb' 0 6).toNat = va.toNat % 64 := by
  simp [BitVec.extractLsb'_toNat]

/-- 22-bit mapping adds the offset in the page to PAR times 64. -/
theorem map22_toNat (par va : Word) : (map22 par va).toNat = (par.toNat * 64 + va.toNat % 8192) % 2 ^ 22 := by
  simp only [map22, Laws.toNat_append_eq, BitVec.toNat_add, BitVec.toNat_setWidth, blockNumber_toNat, blockOffset_toNat]
  omega

/-- 18-bit mapping does so in 18 bits, and puts their top 8K bytes at the top of physical memory. -/
theorem map18_toNat (par va : Word) : (map18 par va).toNat =
    if (par.toNat * 64 + va.toNat % 8192) % 2 ^ 18 < 0o760000 then (par.toNat * 64 + va.toNat % 8192) % 2 ^ 18
    else 0o17000000 + (par.toNat * 64 + va.toNat % 8192) % 2 ^ 18 := by
  have hblock : (par.extractLsb' 0 12 + (va.extractLsb' 6 7).setWidth 12).toNat =
      (par.toNat + va.toNat / 64 % 128) % 4096 := by
    simp only [BitVec.toNat_add, BitVec.toNat_setWidth, BitVec.extractLsb'_toNat, Nat.shiftRight_eq_div_pow]
    omega
  unfold map18
  generalize par.extractLsb' 0 12 + (va.extractLsb' 6 7).setWidth 12 = block at hblock
  have htop : block.extractLsb' 7 5 = 0o37#5 ↔ block.toNat / 128 = 31 := by
    have := block.isLt
    rw [← BitVec.toNat_inj, BitVec.extractLsb'_toNat, Nat.shiftRight_eq_div_pow, BitVec.toNat_ofNat]
    omega
  simp only [htop]
  split <;> simp only [Laws.toNat_append_eq, BitVec.toNat_ofNat, blockOffset_toNat] <;> split <;> omega

/-! ## With relocation on -/

section
variable {s : State} {sp : Space} {m : BitVec 2} {va : Word} {acc : Access} {i : Fin 48}

/-- A reference that passes the checks of its page is relocated, and a write sets W of the page (20_memory R135 to R138). -/
theorem translate_granted (hon : s.mmu.mmr0.getLsbD 0 = true) (hm : m ≠ 2#2)
    (hi : i = pageSlot m (usedSpace s.mmu.mmr3 m sp) va)
    (hchecks : (pageNonResident (s.mmu.pdr.get i) || pageLengthError (s.mmu.pdr.get i) va ||
      pageReadOnly (s.mmu.pdr.get i) acc) = false) :
    translate sp m va acc s = .ok (relocate s.mmu.mmr3 (s.mmu.par.get i) va) (if acc = .write then
      { s with mmu := { s.mmu with pdr := s.mmu.pdr.set i.val (s.mmu.pdr.get i ||| pdrW) i.isLt } } else s) := by
  subst hi
  simp only [translate, hon, hm, hchecks, Bool.not_true, Bool.false_eq_true, if_false]

/-- A reference that fails a check of its page aborts, and MMR0 records what failed (20_memory R137, R139). -/
theorem translate_denied (hon : s.mmu.mmr0.getLsbD 0 = true) (hm : m ≠ 2#2)
    (hi : i = pageSlot m (usedSpace s.mmu.mmr3 m sp) va)
    (hchecks : (pageNonResident (s.mmu.pdr.get i) || pageLengthError (s.mmu.pdr.get i) va ||
      pageReadOnly (s.mmu.pdr.get i) acc) = true) :
    translate sp m va acc s = .error (.raise .mmuAbort) (s.recordAbort (pageNonResident (s.mmu.pdr.get i))
      (pageLengthError (s.mmu.pdr.get i) va) (pageReadOnly (s.mmu.pdr.get i) acc) m
      (decide (usedSpace s.mmu.mmr3 m sp = .d)) (va.extractLsb' 13 3)) := by
  subst hi
  simp only [translate, hon, hm, hchecks, Bool.not_true, Bool.false_eq_true, if_false, if_true]

/-- In the illegal mode every reference aborts; what MMR0 records of the length and of a data reference's space is free
(20_memory R140). -/
theorem translate_illegalMode (hon : s.mmu.mmr0.getLsbD 0 = true) : ∃ length space : Bool, (sp = .i → space = false) ∧
    translate sp 2#2 va acc s = .error (.raise .mmuAbort)
      (({ s with draws := s.draws + 2 } : State).recordAbort true length false 2#2 space (va.extractLsb' 13 3)) := by
  cases sp with
  | i =>
    refine ⟨Config.freeBit s.draws, false, fun _ => rfl, ?_⟩
    simp only [translate, hon, Bool.not_true, Bool.false_eq_true, if_false, if_true]
  | d =>
    refine ⟨Config.freeBit s.draws, Config.freeBit (s.draws + 1), nofun, ?_⟩
    simp only [translate, hon, Bool.not_true, Bool.false_eq_true, if_false, if_true]

end

/-- Settles O16: the reference passes the checks, and relocation is read in numbers for each mapping. -/
theorem relocatedAddress : Obligations.RelocatedAddress := by
  intro s sp m va acc i hon hm hi hresident hinside hwritable
  have hchecks : (pageNonResident (s.mmu.pdr.get i) || pageLengthError (s.mmu.pdr.get i) va ||
      pageReadOnly (s.mmu.pdr.get i) acc) = false := by rw [hresident, hinside, hwritable]; rfl
  refine ⟨_, translate_granted hon hm hi hchecks, fun h22 => ?_, fun h18 => ?_⟩
  · rw [relocate, if_pos h22, map22_toNat]
  · rw [relocate, if_neg (by rw [h18]; exact Bool.false_ne_true), map18_toNat]

/-! ## Aborts -/

/-- ACF 0 and 2 forbid every access. -/
theorem pageNonResident_iff (pdr : Word) :
    pageNonResident pdr = true ↔ pdr.toNat / 2 % 4 = 0 ∨ pdr.toNat / 2 % 4 = 2 := by
  simp only [pageNonResident, Bool.or_eq_true, beq_iff_eq, ← BitVec.toNat_inj, BitVec.extractLsb'_toNat,
    Nat.shiftRight_eq_div_pow, BitVec.toNat_ofNat, Nat.reducePow, Nat.reduceMod, pow_one]

/-- ACF 1 forbids every access but a read. -/
theorem pageReadOnly_iff (pdr : Word) (acc : Access) :
    pageReadOnly pdr acc = true ↔ pdr.toNat / 2 % 4 = 1 ∧ acc ≠ .read := by
  simp only [pageReadOnly, Bool.and_eq_true, beq_iff_eq, decide_eq_true_eq, ← BitVec.toNat_inj, BitVec.extractLsb'_toNat,
    Nat.shiftRight_eq_div_pow, BitVec.toNat_ofNat, Nat.reducePow, Nat.reduceMod, pow_one]

/-- A block lies outside its page below the length of a downward page, or above that of an upward one. -/
theorem pageLengthError_iff (pdr va : Word) :
    pageLengthError pdr va = true ↔ if pdr.getLsbD 3 then va.toNat / 64 % 128 < pdr.toNat / 256 % 128
      else pdr.toNat / 256 % 128 < va.toNat / 64 % 128 := by
  have hlength : (pdr.extractLsb' 8 7).toNat = pdr.toNat / 256 % 128 := by
    simp only [BitVec.extractLsb'_toNat, Nat.shiftRight_eq_div_pow]
  unfold pageLengthError
  split <;> simp only [decide_eq_true_eq, BitVec.lt_def, blockNumber_toNat, hlength]

section
variable {s : State} (nonres length readonly : Bool) (m : BitVec 2) (space : Bool) (page : BitVec 3)

/-- A frozen MMR0 records nothing (20_memory R139). -/
theorem recordAbort_of_frozen (h : s.mmu.mmr0.extractLsb' 13 3 ≠ 0#3) :
    s.recordAbort nonres length readonly m space page = s := by
  rw [State.recordAbort, if_pos ((frozen_eq_true_iff s).2 h)]

/-- Otherwise it keeps bits 12:7 and 0 and takes the rest from the reference. -/
theorem recordAbort_of_not_frozen (h : s.mmu.mmr0.extractLsb' 13 3 = 0#3) :
    s.recordAbort nonres length readonly m space page = { s with mmu := { s.mmu with
      mmr0 := BitVec.ofBool nonres ++ BitVec.ofBool length ++ BitVec.ofBool readonly ++ s.mmu.mmr0.extractLsb' 7 6 ++ m ++
        BitVec.ofBool space ++ page ++ s.mmu.mmr0.extractLsb' 0 1 } } := by
  rw [State.recordAbort, if_neg (by rw [(frozen_eq_false_iff s).2 h]; exact Bool.false_ne_true)]

end

/-- Settles O18: a failed check aborts in a legal mode, every reference in the illegal one, and both record by
`State.recordAbort`. -/
theorem memoryManagementAborts : Obligations.MemoryManagementAborts := by
  intro s sp m va acc pdr nonres len ro hon
  refine ⟨fun hm hpdr hnonres hlen hro hfails => ?_, ?_⟩
  · obtain rfl : nonres = pageNonResident pdr := Bool.eq_iff_iff.2 (hnonres.trans (pageNonResident_iff pdr).symm)
    obtain rfl : len = pageLengthError pdr va := Bool.eq_iff_iff.2 (hlen.trans (pageLengthError_iff pdr va).symm)
    obtain rfl : ro = pageReadOnly pdr acc := Bool.eq_iff_iff.2 (hro.trans (pageReadOnly_iff pdr acc).symm)
    subst hpdr
    exact ⟨_, translate_denied hon hm rfl hfails, recordAbort_of_frozen _ _ _ _ _ _, recordAbort_of_not_frozen _ _ _ _ _ _⟩
  · rintro rfl
    obtain ⟨length, space, hspace, habort⟩ := translate_illegalMode (sp := sp) (va := va) (acc := acc) hon
    refine ⟨_, habort, fun hfrozen => ?_, fun hfree => ?_⟩
    · rw [recordAbort_of_frozen (s := { s with draws := s.draws + 2 }) _ _ _ _ _ _ hfrozen]
    · rw [recordAbort_of_not_frozen (s := { s with draws := s.draws + 2 }) _ _ _ _ _ _ hfree]
      exact ⟨rfl, length, space, hspace, rfl⟩

end Sys2Proof.Machine
end

section
/-! PROOFS. Words, bytes and stores in physical storage (20_memory R101, R102, R110, R130, R138, R151). -/

namespace Sys2Proof.Machine

/-! ## The two bytes of a word in storage -/

/-- Storing the low byte of a word keeps its high byte. -/
theorem readWord_write_low {m : Memory} (a : Nat) (b : Byte) (h : m.wf = true) :
    (m.write a b).readWord a = m.read (a + 1) ++ b := by
  unfold Memory.readWord
  rw [Memory.read_write_ne b (Nat.succ_ne_self a), Memory.read_write_same a b h]

/-- Storing the high byte of a word keeps its low byte. -/
theorem readWord_write_high {m : Memory} (a : Nat) (b : Byte) (h : m.wf = true) :
    (m.write (a + 1) b).readWord a = b ++ m.read a := by
  unfold Memory.readWord
  rw [Memory.read_write_same (a + 1) b h, Memory.read_write_ne b (Nat.succ_ne_self a).symm]

theorem getLsbD_lowMask : ∀ i < 16, (0o377#16 : Word).getLsbD i = decide (i < 8) := by decide

theorem getLsbD_highMask : ∀ i < 16, (0o177400#16 : Word).getLsbD i = !decide (i < 8) := by decide

/-- A word whose low byte is replaced, by masks. -/
theorem append_lowByte_eq_masks (high low : Byte) (v : Word) :
    high ++ v.extractLsb' 0 8 = ((high ++ low) &&& 0o177400#16) ||| (v &&& 0o377#16) := by
  refine BitVec.eq_of_getLsbD_eq fun i hi => ?_
  simp only [BitVec.getLsbD_or, BitVec.getLsbD_and, BitVec.getLsbD_append, getLsbD_lowMask i hi, getLsbD_highMask i hi,
    BitVec.getLsbD_extractLsb']
  by_cases h : i < 8 <;> simp [h]

/-- A word whose high byte is replaced, by masks. -/
theorem append_highByte_eq_masks (high low : Byte) (v : Word) :
    v.extractLsb' 0 8 ++ low = ((high ++ low) &&& 0o377#16) ||| (v <<< 8) := by
  refine BitVec.eq_of_getLsbD_eq fun i hi => ?_
  simp only [BitVec.getLsbD_or, BitVec.getLsbD_and, BitVec.getLsbD_append, getLsbD_lowMask i hi,
    BitVec.getLsbD_extractLsb', BitVec.getLsbD_shiftLeft]
  by_cases h : i < 8
  · simp [h]
  · have : i - 8 < 8 := by omega
    simp [h, hi, this]

/-! ## References to a word or a byte -/

/-- What answers at an address depends only on its word. -/
theorem deviceAt_congr_wordAddr {s : State} {a b : PAddr} (h : wordAddr a = wordAddr b) : s.deviceAt a = s.deviceAt b := by
  unfold State.deviceAt
  rw [h]

/-- How a cycle ends depends only on the word of its address. -/
theorem busAnswer_congr_wordAddr {s : State} {a b : PAddr} (h : wordAddr a = wordAddr b) :
    s.busAnswer a = s.busAnswer b := by
  unfold State.busAnswer
  rw [h, deviceAt_congr_wordAddr h]

/-- A byte reference and an even word reference are aligned (20_memory R102). -/
theorem checkAligned_pass {sz : Size} {va : Word} (s : State) (h : sz = .byte ∨ va.getLsbD 0 = false) :
    checkAligned sz va s = .ok () s := by
  have haligned : ¬(sz = .word ∧ va.getLsbD 0 = true) := by
    rintro ⟨rfl, hodd⟩
    rcases h with h | h
    · cases h
    · rw [h] at hodd
      cases hodd
  rw [checkAligned, if_neg haligned]
  rfl

/-- A word reference to an odd address is not (20_memory R102). -/
theorem checkAligned_odd {va : Word} (s : State) (h : va.getLsbD 0 = true) :
    checkAligned .word va s = .error (.raise .addressError) s := by
  rw [checkAligned, if_pos ⟨rfl, h⟩]
  rfl

/-- An aligned read goes on to the address that translates it (20_memory R130). -/
theorem memRead_of_translate {s s1 : State} {sp : Space} {m : BitVec 2} {sz : Size} {va : Word} {acc : Access} {pa : PAddr}
    (haligned : sz = .byte ∨ va.getLsbD 0 = false) (ht : translate sp m va acc s = .ok pa s1) :
    memRead sp m sz va acc s = physRead sz pa s1 :=
  (run_bind_ok (checkAligned_pass s haligned)).trans (run_bind_ok ht)

/-- So does an aligned write. -/
theorem memWrite_of_translate {s s1 : State} {sp : Space} {m : BitVec 2} {sz : Size} {va : Word} {pa : PAddr} (v : Word)
    (haligned : sz = .byte ∨ va.getLsbD 0 = false) (ht : translate sp m va .write s = .ok pa s1) :
    memWrite sp m sz va v s = physWrite sz pa v s1 :=
  (run_bind_ok (checkAligned_pass s haligned)).trans (run_bind_ok ht)

/-- A write of virtual memory that succeeds was translated and then made. -/
theorem memWrite_ok {s t : State} {sp : Space} {m : BitVec 2} {sz : Size} {va v : Word} {b : Bool}
    (h : memWrite sp m sz va v s = .ok b t) :
    ∃ pa s1, translate sp m va .write s = .ok pa s1 ∧ physWrite sz pa v s1 = .ok b t := by
  obtain ⟨_, s0, haligned, hrest⟩ := bind_eq_ok h
  cases checkAligned_ok haligned
  exact bind_eq_ok hrest

/-! ## Plain memory -/

namespace State.PlainAt

variable {s : State} {va : Word} {a : PAddr} (h : s.PlainAt va)
include h

/-- The physical address of a plain word, and of the odd byte in it, in numbers. -/
theorem toNat_setWidth : (va.setWidth 22 : PAddr).toNat = va.toNat := by
  have := h.addr_lt
  rw [BitVec.toNat_setWidth]
  omega

theorem setWidth_succ : ((va + 1#16).setWidth 22 : PAddr) = va.setWidth 22 + 1#22 := by
  have := h.addr_lt
  refine BitVec.eq_of_toNat_eq ?_
  simp only [BitVec.toNat_add, BitVec.toNat_setWidth, BitVec.toNat_ofNat]
  omega

theorem toNat_setWidth_succ : (va.setWidth 22 + 1#22 : PAddr).toNat = va.toNat + 1 := by
  have := h.addr_lt
  rw [BitVec.toNat_add, h.toNat_setWidth, BitVec.toNat_ofNat]
  omega

theorem even_paddr : (va.setWidth 22 : PAddr).getLsbD 0 = false := by
  simpa using h.even

/-- The odd byte of a plain word translates like the even one. -/
theorem translate_succ (sp : Space) (m : BitVec 2) (acc : Access) :
    Machine.translate sp m (va + 1#16) acc s = .ok (va.setWidth 22 + 1#22) s := by
  have hbelow : va + 1#16 < 0o160000#16 := by
    have heven : va.toNat % 2 = 0 := by
      have := h.even
      simpa [BitVec.getLsbD, Nat.testBit_zero] using this
    have := h.addr_lt
    show (va + 1#16).toNat < 57344
    simp only [BitVec.toNat_add, BitVec.toNat_ofNat]
    omega
  rw [translate_off sp m _ acc h.off, map16_low hbelow, h.setWidth_succ]

/-- A cycle to either byte of a plain word reads the word and changes nothing. -/
theorem physReadWord_eq (ha : wordAddr a = va.setWidth 22) : Machine.physReadWord a s = .ok (s.word va) s := by
  have hw : wordAddr a = wordAddr (va.setWidth 22) := ha.trans (wordAddr_even h.even).symm
  simp [Machine.physReadWord, deviceAt_congr_wordAddr hw, busAnswer_congr_wordAddr hw, h.device, h.busAnswer, h.answered,
    BusAnswer.plain, State.word, ha, h.toNat_setWidth]

/-- A write to either byte of a plain word stores its bytes and changes nothing else. -/
theorem physWrite_eq (sz : Size) (v : Word) (ha : wordAddr a = va.setWidth 22) :
    Machine.physWrite sz a v s = .ok false { s with mem := s.mem.store sz a v } := by
  have hw : wordAddr a = wordAddr (va.setWidth 22) := ha.trans (wordAddr_even h.even).symm
  have hnone : s.answers = [] := h.unanswered
  rw [physWrite_storage ((deviceAt_congr_wordAddr hw).trans h.device)
    (by rw [busAnswer_congr_wordAddr hw, h.busAnswer]; rfl), h.answered, hnone]
  rfl

/-- Storage alone does not decide what is plain. -/
theorem withMem (mem : Memory) : State.PlainAt { s with mem := mem } va := h.congr rfl rfl rfl

/-- The byte at the even address is the low half of the word. -/
theorem readByte (sp : Space) (m : BitVec 2) (acc : Access) :
    memRead sp m .byte va acc s = .ok (s.word va &&& 0o377#16) s := by
  rw [memRead_of_translate (.inl rfl) (h.translate sp m acc),
    physRead_byte_ok (h.physReadWord_eq (wordAddr_even h.even)), selectByte_even h.even_paddr]

/-- The byte at the odd address is its high half. -/
theorem readByte_succ (sp : Space) (m : BitVec 2) (acc : Access) :
    memRead sp m .byte (va + 1#16) acc s = .ok (s.word va >>> 8) s := by
  rw [memRead_of_translate (.inl rfl) (h.translate_succ sp m acc),
    physRead_byte_ok (h.physReadWord_eq (wordAddr_odd h.even_paddr)), selectByte_odd h.even_paddr]

theorem writeByte (sp : Space) (m : BitVec 2) (v : Word) : memWrite sp m .byte va v s =
    .ok false { s with mem := s.mem.write va.toNat (v.extractLsb' 0 8) } := by
  rw [memWrite_of_translate v (.inl rfl) (h.translate sp m .write), h.physWrite_eq .byte v (wordAddr_even h.even),
    Memory.store, h.toNat_setWidth]

theorem writeByte_succ (sp : Space) (m : BitVec 2) (v : Word) : memWrite sp m .byte (va + 1#16) v s =
    .ok false { s with mem := s.mem.write (va.toNat + 1) (v.extractLsb' 0 8) } := by
  rw [memWrite_of_translate v (.inl rfl) (h.translate_succ sp m .write), h.physWrite_eq .byte v (wordAddr_odd h.even_paddr),
    Memory.store, h.toNat_setWidth_succ]

end State.PlainAt

/-- Settles O13: each write is one store into plain storage, read back as a word and by its bytes. -/
theorem plainMemoryReadsBack : Obligations.PlainMemoryReadsBack := by
  intro s sp sp' m m' va v acc
  refine ⟨fun hwf h => ⟨?_, ?_, ?_⟩, fun hodd =>
    ⟨run_bind_error (checkAligned_odd s hodd), run_bind_error (checkAligned_odd s hodd)⟩⟩
  · have ht : (s.putWord va v).PlainAt va := h.withMem _
    have hword : (s.putWord va v).word va = v := Memory.readWord_writeWord _ v hwf
    refine ⟨_, h.write sp m v, ?_, ?_, ?_, rfl, fun a h0 h1 => Memory.read_writeWord_ne v h0 h1⟩
    · rw [ht.read, hword]
    · rw [ht.readByte, hword]
    · rw [ht.readByte_succ, hword]
  · refine ⟨_, h.writeByte sp m v, ((h.withMem _).read sp' m' acc).trans ?_, rfl, fun a ha => Memory.read_write_ne _ ha⟩
    rw [State.word, readWord_write_low _ _ hwf]
    exact congrArg (EStateM.Result.ok · _) (append_lowByte_eq_masks _ _ v)
  · refine ⟨_, h.writeByte_succ sp m v, ((h.withMem _).read sp' m' acc).trans ?_, rfl,
      fun a ha => Memory.read_write_ne _ ha⟩
    rw [State.word, readWord_write_high _ _ hwf]
    exact congrArg (EStateM.Result.ok · _) (append_highByte_eq_masks _ _ v)

/-! ## Stores through any mapping -/

/-- A store changes the bytes of its size only. -/
theorem read_store_of_not_mem {m : Memory} {sz : Size} {a : PAddr} {v : Word} {b : Nat} (h : b ∉ storedBytes sz a) :
    (m.store sz a v).read b = m.read b := by
  cases sz with
  | byte => exact Memory.read_write_ne _ (List.ne_of_not_mem_cons h)
  | word =>
    simp only [storedBytes, List.mem_cons, List.not_mem_nil, or_false, not_or] at h
    exact Memory.read_writeWord_ne v h.1 h.2

/-- A translation that succeeds changes only the memory management unit. -/
theorem translate_ok_mmu {s s1 : State} {sp : Space} {m : BitVec 2} {va : Word} {acc : Access} {pa : PAddr}
    (h : translate sp m va acc s = .ok pa s1) : s1 = { s with mmu := s1.mmu } := by
  obtain rfl | ⟨_, i, rfl⟩ := translate_ok h <;> rfl

/-- What other masters store does not depend on the memory management unit. -/
theorem answered_mem_withMmu (s : State) (u : Mmu) : State.answered { s with mmu := u } = { s.answered with mmu := u } := rfl

/-- What other masters store keeps storage canonical. -/
theorem wf_dmaMem {s : State} (ws : List (PAddr × Word)) (h : s.mem.wf = true) : (s.dmaMem ws).wf = true :=
  List.foldlRecOn (motive := fun m => Memory.wf m = true) ws s.dmaStore h fun m hm w _ => by
    unfold State.dmaStore
    split
    · exact Memory.wf_writeWord _ _ hm
    · exact hm

/-- A word that another master stores is in storage, where there is storage, and changes no other byte. -/
theorem dmaMem_singleton_storage {s : State} {d : PAddr} (w : Word) (h : s.mem.wf = true) (hd : s.deviceAt d = .storage) :
    (s.dmaMem [(d, w)]).readWord (wordAddr d).toNat = w ∧
      ∀ a, a ∉ storedBytes .word d → (s.dmaMem [(d, w)]).read a = s.mem.read a := by
  have hstored : s.dmaMem [(d, w)] = s.mem.store .word d w := if_pos hd
  rw [hstored]
  exact ⟨Memory.readWord_writeWord _ w h, fun a => read_store_of_not_mem⟩

/-- Elsewhere it is lost. -/
theorem dmaMem_singleton_lost {s : State} {d : PAddr} (w : Word) (hd : s.deviceAt d ≠ .storage) :
    s.dmaMem [(d, w)] = s.mem := if_neg hd

/-- Settles O14: the write is translated, which keeps all but the MMU, and then made by `physWrite_storage_ok`; what other
masters stored before it is `State.dmaMem`. -/
theorem storeChangesItsBytesOnly : Obligations.StoreChangesItsBytesOnly := by
  intro s s1 t sp m sz va v pa b hwf htranslate hstorage hwrite
  refine ⟨?_, ?_⟩
  · obtain ⟨pa', s1', htranslate', hphys⟩ := memWrite_ok hwrite
    obtain ⟨rfl, rfl⟩ : pa = pa' ∧ s1 = s1' := by
      rw [htranslate] at htranslate'
      cases htranslate'
      exact ⟨rfl, rfl⟩
    obtain ⟨rfl, ht⟩ := physWrite_storage_ok hstorage hphys
    rw [translate_ok_mmu htranslate, answered_mem_withMmu] at ht
    subst ht
    have hwf' : s.answered.mem.wf = true := wf_dmaMem _ hwf
    refine ⟨rfl, rfl, fun a => read_store_of_not_mem, ?_, ?_⟩
    · rintro rfl
      exact Memory.read_write_same _ _ hwf'
    · rintro rfl
      exact Memory.readWord_writeWord _ v hwf'
  · rintro other hother
    rw [State.answered_mem, hother]
    refine ⟨?_, ?_⟩
    · rintro rfl
      rfl
    · rintro d w rfl
      exact ⟨dmaMem_singleton_lost w, dmaMem_singleton_storage w hwf⟩

end Sys2Proof.Machine
end

section
/-! PROOFS. The fields of an instruction word: read from a word the encoder builds, and put back together into the word
(30_encoding R203 to R214, 45 R510). -/

namespace Sys2Proof

/-! ## A field as a number -/

theorem field_toNat (w : Word) (k n : Nat) : (w.extractLsb' k n).toNat = w.toNat / 2 ^ k % 2 ^ n := by
  rw [BitVec.extractLsb'_toNat, Nat.shiftRight_eq_div_pow]

theorem field_eq_iff {w : Word} {k n v : Nat} :
    w.extractLsb' k n = BitVec.ofNat n v ↔ w.toNat / 2 ^ k % 2 ^ n = v % 2 ^ n := by
  rw [← BitVec.toNat_inj, field_toNat, BitVec.toNat_ofNat]

/-! ## Register, mode, operand and AC fields -/

@[simp] theorem Reg.ofBits_bits (r : Reg) : Reg.ofBits r.bits = r := by cases r <;> rfl

@[simp] theorem AddrMode.ofBits_bits (m : AddrMode) : AddrMode.ofBits m.bits = m := by cases m <;> rfl

@[simp] theorem AcField.ofBits_bits (ac : AcField) : AcField.ofBits ac.bits = ac := by cases ac <;> rfl

@[simp] theorem Operand.ofBits_bits (f : Operand) : Operand.ofBits f.bits = f := by
  simp only [Operand.ofBits, Operand.bits, BitVec.extractLsb'_append_eq_left, BitVec.extractLsb'_append_eq_right,
    AddrMode.ofBits_bits, Reg.ofBits_bits]

theorem Reg.bits_ofBits : ∀ b : BitVec 3, (Reg.ofBits b).bits = b := by decide

theorem AddrMode.bits_ofBits : ∀ b : BitVec 3, (AddrMode.ofBits b).bits = b := by decide

theorem AcField.bits_ofBits : ∀ b : BitVec 2, (AcField.ofBits b).bits = b := by decide

theorem Operand.bits_ofBits (b : BitVec 6) : (Operand.ofBits b).bits = b := by
  rw [Operand.bits, Operand.ofBits, AddrMode.bits_ofBits, Reg.bits_ofBits,
    BitVec.extractLsb'_append_extractLsb'_eq_extractLsb' (by rfl), BitVec.extractLsb'_eq_self]

/-! ## What the decoder reads from a word of each format -/

/-! A 10-bit opcode over 6 bits (R203, R210; 45 R510 without an AC field). -/
namespace SingleWord
variable (op : BitVec 10) (f : BitVec 6)

@[simp] theorem bits_15_12 : (op ++ f : Word).extractLsb' 12 4 = op.extractLsb' 6 4 :=
  BitVec.extractLsb'_append_eq_of_le (by decide)

@[simp] theorem bits_11_8 : (op ++ f : Word).extractLsb' 8 4 = op.extractLsb' 2 4 :=
  BitVec.extractLsb'_append_eq_of_le (by decide)

@[simp] theorem bits_11_6 : (op ++ f : Word).extractLsb' 6 6 = op.extractLsb' 0 6 :=
  BitVec.extractLsb'_append_eq_of_le (by decide)

@[simp] theorem bits_7_6 : (op ++ f : Word).extractLsb' 6 2 = op.extractLsb' 0 2 :=
  BitVec.extractLsb'_append_eq_of_le (by decide)

@[simp] theorem bits_5_0 : (op ++ f : Word).extractLsb' 0 6 = f := BitVec.extractLsb'_append_eq_right

end SingleWord

/-! An 8-bit opcode over 8 bits (R206, R209). -/
namespace BranchWord
variable (op offset : BitVec 8)

@[simp] theorem bits_15_12 : (op ++ offset : Word).extractLsb' 12 4 = op.extractLsb' 4 4 :=
  BitVec.extractLsb'_append_eq_of_le (by decide)

@[simp] theorem bits_11_8 : (op ++ offset : Word).extractLsb' 8 4 = op.extractLsb' 0 4 :=
  BitVec.extractLsb'_append_eq_of_le (by decide)

@[simp] theorem bits_7_0 : (op ++ offset : Word).extractLsb' 0 8 = offset := BitVec.extractLsb'_append_eq_right

end BranchWord

/-! A 7-bit opcode over a register and 6 bits (R205, R207). -/
namespace RegOpWord
variable (op : BitVec 7) (r : BitVec 3) (f : BitVec 6)

@[simp] theorem bits_15_12 : (op ++ r ++ f : Word).extractLsb' 12 4 = op.extractLsb' 3 4 :=
  (BitVec.extractLsb'_append_eq_of_le (by decide)).trans (BitVec.extractLsb'_append_eq_of_le (by decide))

@[simp] theorem bits_11_9 : (op ++ r ++ f : Word).extractLsb' 9 3 = op.extractLsb' 0 3 :=
  (BitVec.extractLsb'_append_eq_of_le (by decide)).trans (BitVec.extractLsb'_append_eq_of_le (by decide))

@[simp] theorem bits_11_8 : (op ++ r ++ f : Word).extractLsb' 8 4 = (op ++ r).extractLsb' 2 4 :=
  BitVec.extractLsb'_append_eq_of_le (by decide)

@[simp] theorem bits_8_6 : (op ++ r ++ f : Word).extractLsb' 6 3 = r :=
  (BitVec.extractLsb'_append_eq_of_le (by decide)).trans BitVec.extractLsb'_append_eq_right

@[simp] theorem bits_5_0 : (op ++ r ++ f : Word).extractLsb' 0 6 = f := BitVec.extractLsb'_append_eq_right

end RegOpWord

/-! A 4-bit opcode over two operand fields (R204). -/
namespace DoubleWord
variable (op : BitVec 4) (src dst : BitVec 6)

@[simp] theorem bits_15_12 : (op ++ src ++ dst : Word).extractLsb' 12 4 = op :=
  (BitVec.extractLsb'_append_eq_of_le (by decide)).trans BitVec.extractLsb'_append_eq_left

@[simp] theorem bits_11_6 : (op ++ src ++ dst : Word).extractLsb' 6 6 = src :=
  (BitVec.extractLsb'_append_eq_of_le (by decide)).trans BitVec.extractLsb'_append_eq_right

@[simp] theorem bits_5_0 : (op ++ src ++ dst : Word).extractLsb' 0 6 = dst := BitVec.extractLsb'_append_eq_right

end DoubleWord

/-! An 8-bit opcode, `0b1111` and the floating opcode, over an AC field and 6 bits (45 R510). -/
namespace FloatWord
variable (op : BitVec 8) (ac : BitVec 2) (f : BitVec 6)

@[simp] theorem bits_15_12 : (op ++ ac ++ f : Word).extractLsb' 12 4 = op.extractLsb' 4 4 :=
  (BitVec.extractLsb'_append_eq_of_le (by decide)).trans (BitVec.extractLsb'_append_eq_of_le (by decide))

@[simp] theorem bits_11_8 : (op ++ ac ++ f : Word).extractLsb' 8 4 = op.extractLsb' 0 4 :=
  (BitVec.extractLsb'_append_eq_of_le (by decide)).trans (BitVec.extractLsb'_append_eq_of_le (by decide))

@[simp] theorem bits_7_6 : (op ++ ac ++ f : Word).extractLsb' 6 2 = ac :=
  (BitVec.extractLsb'_append_eq_of_le (by decide)).trans BitVec.extractLsb'_append_eq_right

@[simp] theorem bits_5_0 : (op ++ ac ++ f : Word).extractLsb' 0 6 = f := BitVec.extractLsb'_append_eq_right

end FloatWord

/-! ## A word put together from its fields -/

/-- Two neighbouring fields are one field. -/
theorem field_eq_append {w : Word} {start k m : Nat} {hi : BitVec k} {lo : BitVec m}
    (hhi : w.extractLsb' (start + m) k = hi) (hlo : w.extractLsb' start m = lo) :
    w.extractLsb' start (k + m) = hi ++ lo := by
  rw [← hhi, ← hlo, BitVec.extractLsb'_append_extractLsb'_eq_extractLsb' rfl]

/-- The opcode over the rest of the word is the word. -/
theorem append_low_eq_self {k m : Nat} {w : BitVec (k + m)} {op : BitVec k} (hop : w.extractLsb' m k = op) :
    op ++ w.extractLsb' 0 m = w := by
  rw [← hop, BitVec.extractLsb'_append_extractLsb'_eq_extractLsb' (Nat.zero_add m).symm, BitVec.extractLsb'_eq_self]

theorem append_eq_self {k m : Nat} {w : BitVec (k + m)} {op : BitVec k} {low : BitVec m} (hop : w.extractLsb' m k = op)
    (hlow : w.extractLsb' 0 m = low) : op ++ low = w := hlow ▸ append_low_eq_self hop

section
variable {w : Word}

theorem encSingle_dstField {op : BitVec 10} (hop : w.extractLsb' 6 10 = op) : encSingle op (dstField w) = w := by
  rw [encSingle, dstField, Operand.bits_ofBits]
  exact append_low_eq_self hop

theorem encRegOp_fields {op : BitVec 7} (hop : w.extractLsb' 9 7 = op) : encRegOp op (regField w) (dstField w) = w := by
  rw [encRegOp, regField, dstField, Reg.bits_ofBits, Operand.bits_ofBits]
  exact append_low_eq_self (field_eq_append hop rfl)

theorem encDouble_fields {op : BitVec 4} (hop : w.extractLsb' 12 4 = op) :
    encDouble op (srcField w) (dstField w) = w := by
  rw [encDouble, srcField, dstField, Operand.bits_ofBits, Operand.bits_ofBits]
  exact append_low_eq_self (field_eq_append hop rfl)

section
variable (hfloat : w.extractLsb' 12 4 = 0o17#4)
include hfloat

theorem encFloat_fields {foc : BitVec 4} (hfoc : w.extractLsb' 8 4 = foc) :
    encFloat foc (acField w) (dstField w) = w := by
  rw [encFloat, acField, dstField, AcField.bits_ofBits, Operand.bits_ofBits]
  exact append_low_eq_self (field_eq_append (field_eq_append hfloat hfoc) rfl)

theorem encFloatSingle_dstField {foc : BitVec 6} (hfoc : w.extractLsb' 6 6 = foc) :
    encFloatSingle foc (dstField w) = w := by
  rw [encFloatSingle, dstField, Operand.bits_ofBits]
  exact append_low_eq_self (field_eq_append hfloat hfoc)

end
end

end Sys2Proof
end

section
/-! PROOFS. The decoder inverts the encoder (30_encoding R203 to R220, 45 R510, R511). -/

namespace Sys2Proof

/-! ## Reserved and illegal codes -/

section
variable {w : Word}

theorem decodeOperate_eq_reserved (h : 0o10 ≤ (w.extractLsb' 0 6).toNat) : decodeOperate w = .reserved w := by
  unfold decodeOperate
  split
  case h_9 => rfl
  all_goals simp_all

theorem decodeSingle_eq_reserved (h : (w.extractLsb' 6 6).toNat = 0o71 ∨ 0o74 ≤ (w.extractLsb' 6 6).toNat) :
    decodeSingle w = .reserved w := by
  unfold decodeSingle
  split
  case h_20 => rfl
  all_goals simp_all

theorem decodeSingleByte_eq_reserved (h : 0o70 ≤ (w.extractLsb' 6 6).toNat) : decodeSingleByte w = .reserved w := by
  unfold decodeSingleByte
  split
  case h_17 => rfl
  all_goals simp_all

theorem decodeFloat0_eq_illegalFloat (hquarter : w.extractLsb' 6 2 = 0#2)
    (h : 3 ≤ (w.extractLsb' 0 6).toNat ∧ (w.extractLsb' 0 6).toNat ≤ 0o10 ∨ 0o13 ≤ (w.extractLsb' 0 6).toNat) :
    decodeFloat0 w = .illegalFloat w := by
  simp only [decodeFloat0, hquarter]
  split
  case h_6 => rfl
  all_goals simp_all

theorem reservedCode_iff : reservedCode w = true ↔
    (0o000010 ≤ w.toNat ∧ w.toNat ≤ 0o000077) ∨ (0o000210 ≤ w.toNat ∧ w.toNat ≤ 0o000227) ∨
    (0o007100 ≤ w.toNat ∧ w.toNat ≤ 0o007177) ∨ (0o007400 ≤ w.toNat ∧ w.toNat ≤ 0o007777) ∨
    (0o075000 ≤ w.toNat ∧ w.toNat ≤ 0o076777) ∨ (0o107000 ≤ w.toNat ∧ w.toNat ≤ 0o107777) := by
  simp only [reservedCode, Bool.or_eq_true, Bool.and_eq_true, decide_eq_true_eq, or_assoc]

theorem illegalFloatCode_iff : illegalFloatCode w = true ↔
    (0o170003 ≤ w.toNat ∧ w.toNat ≤ 0o170010) ∨ (0o170013 ≤ w.toNat ∧ w.toNat ≤ 0o170077) := by
  simp only [illegalFloatCode, Bool.or_eq_true, Bool.and_eq_true, decide_eq_true_eq]

/-- R220, range by range. -/
theorem decode_of_reservedCode (fd fl : Bool) (h : reservedCode w = true) : decode fd fl w = .reserved w := by
  rcases reservedCode_iff.1 h with h | h | h | h | h | h
  · have h12 : w.extractLsb' 12 4 = 0o00#4 := field_eq_iff.2 (by omega)
    have h8 : w.extractLsb' 8 4 = 0o00#4 := field_eq_iff.2 (by omega)
    have h6 : w.extractLsb' 6 2 = 0#2 := field_eq_iff.2 (by omega)
    simp only [decode, decodeGroup0, decode000, h12, h8, h6]
    exact decodeOperate_eq_reserved (by rw [field_toNat]; omega)
  · have h12 : w.extractLsb' 12 4 = 0o00#4 := field_eq_iff.2 (by omega)
    have h8 : w.extractLsb' 8 4 = 0o00#4 := field_eq_iff.2 (by omega)
    have h6 : w.extractLsb' 6 2 = 2#2 := field_eq_iff.2 (by omega)
    have h3 : w.extractLsb' 3 3 = 1#3 ∨ w.extractLsb' 3 3 = 2#3 := by rw [field_eq_iff, field_eq_iff]; omega
    rcases h3 with h3 | h3 <;> simp only [decode, decodeGroup0, decode000, decode0002, h12, h8, h6, h3]
  · have h12 : w.extractLsb' 12 4 = 0o00#4 := field_eq_iff.2 (by omega)
    have h8 : w.extractLsb' 8 4 = 0o16#4 := field_eq_iff.2 (by omega)
    simp only [decode, decodeGroup0, h12, h8]
    exact decodeSingle_eq_reserved (by rw [field_toNat]; omega)
  · have h12 : w.extractLsb' 12 4 = 0o00#4 := field_eq_iff.2 (by omega)
    have h8 : w.extractLsb' 8 4 = 0o17#4 := field_eq_iff.2 (by omega)
    simp only [decode, decodeGroup0, h12, h8]
    exact decodeSingle_eq_reserved (by rw [field_toNat]; omega)
  · have h12 : w.extractLsb' 12 4 = 0o07#4 := field_eq_iff.2 (by omega)
    have h9 : w.extractLsb' 9 3 = 5#3 ∨ w.extractLsb' 9 3 = 6#3 := by rw [field_eq_iff, field_eq_iff]; omega
    rcases h9 with h9 | h9 <;> simp [decode, decodeGroup7, h12, h9]
  · have h12 : w.extractLsb' 12 4 = 0o10#4 := field_eq_iff.2 (by omega)
    have h8 : w.extractLsb' 8 4 = 0o16#4 ∨ w.extractLsb' 8 4 = 0o17#4 := by rw [field_eq_iff, field_eq_iff]; omega
    have hreserved : decodeSingleByte w = .reserved w := decodeSingleByte_eq_reserved (by rw [field_toNat]; omega)
    rcases h8 with h8 | h8 <;> simp [decode, decodeGroup8, h12, h8, hreserved]

/-- 45 R511. -/
theorem decode_of_illegalFloatCode (fd fl : Bool) (h : illegalFloatCode w = true) : decode fd fl w = .illegalFloat w := by
  have hrange := illegalFloatCode_iff.1 h
  have h12 : w.extractLsb' 12 4 = 0o17#4 := field_eq_iff.2 (by omega)
  have h8 : w.extractLsb' 8 4 = 0o00#4 := field_eq_iff.2 (by omega)
  simp only [decode, decodeFloat, h12, h8]
  exact decodeFloat0_eq_illegalFloat (field_eq_iff.2 (by omega)) (by rw [field_toNat]; omega)

end

/-! ## Words with a field of their own -/

theorem decode_encode_ccop : ∀ (fd fl sense : Bool) (mask : BitVec 4), (Instr.ccop sense mask).wf = true →
    decode fd fl (encode (.ccop sense mask)) = .ccop sense mask := by decide

theorem decode_encode_spl : ∀ (fd fl : Bool) (level : BitVec 3), decode fd fl (encode (.spl level)) = .spl level := by
  decide

theorem decode_encode_rts (fd fl : Bool) (r : Reg) : decode fd fl (encode (.rts r)) = .rts r := by cases r <;> rfl

/-- Bit 8 of a JSR word is the high bit of its register. -/
theorem jsr_bits_11_8 : ∀ r : BitVec 3,
    (0o004#7 ++ r).extractLsb' 2 4 = 0o10#4 ∨ (0o004#7 ++ r).extractLsb' 2 4 = 0o11#4 := by decide

theorem decode_encode_jsr (fd fl : Bool) (r : Reg) (dst : Operand) :
    decode fd fl (encode (.jsr r dst)) = .jsr r dst := by
  rcases jsr_bits_11_8 r.bits with h | h <;> simp [encode, encRegOp, decode, decodeGroup0, regField, dstField, h]

/-- Settles O1: one case for each format and each part of the decoder that reads it. -/
theorem decodeInvertsEncode : Obligations.DecodeInvertsEncode := by
  intro fd fl i hwf hfits
  cases i with
  | halt | wait | rti | bpt | iot | reset | rtt | mfpt | nop | clc | clv | clz | cln | ccc | sec | sev | sez | sen | scc
  | cfcc | setf | seti | setd | setl => rfl
  | bhis | blo => cases hwf
  | reserved code => exact decode_of_reservedCode fd fl hwf
  | illegalFloat code => exact decode_of_illegalFloatCode fd fl hwf
  | ccop sense mask => exact decode_encode_ccop fd fl sense mask hwf
  | spl level => exact decode_encode_spl fd fl level
  | rts r => exact decode_encode_rts fd fl r
  | jsr r dst => exact decode_encode_jsr fd fl r dst
  | mark count => simp [encode, decode, decodeGroup0, decodeSingle]
  | jmp f | swab f => simp [encode, encSingle, decode, decodeGroup0, decode000, dstField]
  | clr f | com f | inc f | dec f | neg f | adc f | sbc f | tst f | ror f | rol f | asr f | asl f | mfpi f | mtpi f
  | sxt f | csm f | tstset f | wrtlck f => simp [encode, encSingle, decode, decodeGroup0, decodeSingle, dstField]
  | clrb f | comb f | incb f | decb f | negb f | adcb f | sbcb f | tstb f | rorb f | rolb f | asrb f | aslb f | mtps f
  | mfpd f | mtpd f | mfps f => simp [encode, encSingle, decode, decodeGroup8, decodeSingleByte, dstField]
  | br x | bne x | beq x | bge x | blt x | bgt x | ble x => simp [encode, encBranch, decode, decodeGroup0]
  | bpl x | bmi x | bhi x | blos x | bvc x | bvs x | bcc x | bcs x | emt x | trap x =>
    simp [encode, encBranch, decode, decodeGroup8]
  | mov s d | cmp s d | bit s d | bic s d | bis s d | add s d | movb s d | cmpb s d | bitb s d | bicb s d | bisb s d
  | sub s d => simp [encode, encDouble, decode, srcField, dstField]
  | mul r f | div r f | ash r f | ashc r f | xor r f => simp [encode, encRegOp, decode, decodeGroup7, regField, dstField]
  | sob r offset => simp [encode, decode, decodeGroup7, regField]
  | ldfps f | stfps f | stst f => simp [encode, encFloatSingle, decode, decodeFloat, decodeFloat0, dstField]
  | clrf f | tstf f | absf f | negf f | clrd f | tstd f | absd f | negd f =>
    simp only [Instr.fits, Bool.not_eq_true'] at hfits
    simp [encode, encFloatSingle, decode, decodeFloat, decodeFloat1, dstField, hfits]
  | stexp ac f | ldexp ac f => simp [encode, encFloat, decode, decodeFloat, acField, dstField]
  | mulf ac f | modf ac f | addf ac f | ldf ac f | subf ac f | cmpf ac f | stf ac f | divf ac f | stcfd ac f | ldcdf ac f
  | muld ac f | modd ac f | addd ac f | ldd ac f | subd ac f | cmpd ac f | std ac f | divd ac f | stcdf ac f
  | ldcfd ac f =>
    simp only [Instr.fits, Bool.not_eq_true'] at hfits
    simp [encode, encFloat, decode, decodeFloat, acField, dstField, hfits]
  | stcfi ac f | ldcif ac f | stcfl ac f | ldclf ac f | stcdi ac f | ldcid ac f | stcdl ac f | ldcld ac f =>
    simp only [Instr.fits, Bool.and_eq_true, Bool.not_eq_true'] at hfits
    simp [encode, encFloat, decode, decodeFloat, acField, dstField, hfits]

theorem decode_eq_of_encode_eq {fd fl : Bool} {i : Instr} {w : Word} (hw : encode i = w) (hwf : i.wf = true)
    (hfits : i.fits fd fl = true) : decode fd fl w = i := hw ▸ decodeInvertsEncode fd fl i hwf hfits

/-- Settles O3: each word is the encoding of its instruction, and decoding inverts it. -/
theorem sampleWordsDecode : Obligations.SampleWordsDecode := by
  refine ⟨?_, ?_, ?_, ?_, ?_, ?_, ?_, ?_, ?_, ?_, ?_⟩ <;> exact decode_eq_of_encode_eq rfl rfl rfl

end Sys2Proof
end

section
/-! PROOFS. The encoder inverts the decoder: every word has a well-formed instruction, which encodes to it (30_encoding R219,
R220, R223; 45 R510, R511). -/

namespace Sys2Proof

/-- The instruction is one the decoder may give for the word under the FPS bits: it encodes to the word, is well-formed and
fits. -/
structure StandsFor (fd fl : Bool) (w : Word) (i : Instr) : Prop where
  encode_eq : encode i = w
  wf : i.wf = true
  fits : i.fits fd fl = true

section
variable {fd fl : Bool} {w : Word}

theorem StandsFor.reserved (h : reservedCode w = true) : StandsFor fd fl w (.reserved w) := ⟨rfl, h, rfl⟩

/-! ## Bits 15:12 = 0 -/

theorem decodeOperate_standsFor (hop : w.extractLsb' 6 10 = 0o0000#10) : StandsFor fd fl w (decodeOperate w) := by
  unfold decodeOperate
  split
  case h_9 =>
    refine .reserved (reservedCode_iff.2 ?_)
    simp only [imp_false, field_eq_iff] at *
    omega
  all_goals exact ⟨append_eq_self hop ‹_›, rfl, rfl⟩

theorem decodeCcop_standsFor : ∀ (sense : Bool) (mask : BitVec 4),
    StandsFor fd fl (0o0005#11 ++ BitVec.ofBool sense ++ mask) (decodeCcop sense mask) := by
  have hencode : ∀ (sense : Bool) (mask : BitVec 4),
      encode (decodeCcop sense mask) = 0o0005#11 ++ BitVec.ofBool sense ++ mask := by decide
  have hwf : ∀ (sense : Bool) (mask : BitVec 4), (decodeCcop sense mask).wf = true := by decide
  have hfits : ∀ (fd fl sense : Bool) (mask : BitVec 4), (decodeCcop sense mask).fits fd fl = true := by decide
  exact fun sense mask => ⟨hencode sense mask, hwf sense mask, hfits fd fl sense mask⟩

theorem ccop_fields (hop : w.extractLsb' 5 11 = 0o0005#11) :
    0o0005#11 ++ BitVec.ofBool (w.getLsbD 4) ++ w.extractLsb' 0 4 = w := by
  have hsense : w.extractLsb' 4 1 = BitVec.ofBool (w.getLsbD 4) := by
    refine BitVec.eq_of_getLsbD_eq fun i hi => ?_
    obtain rfl : i = 0 := by omega
    simp
  exact append_low_eq_self (field_eq_append hop hsense)

theorem decode0002_standsFor (hop : w.extractLsb' 6 10 = 0o0002#10) : StandsFor fd fl w (decode0002 w) := by
  unfold decode0002
  split
  case h_1 hrts =>
    refine ⟨?_, rfl, rfl⟩
    rw [encode, Reg.bits_ofBits]
    exact append_low_eq_self (field_eq_append hop hrts)
  case h_4 hspl => exact ⟨append_low_eq_self (field_eq_append hop hspl), rfl, rfl⟩
  case h_5 =>
    have hop11 : w.extractLsb' 5 11 = 0o0005#11 := by
      simp only [imp_false, field_eq_iff] at *
      omega
    have := decodeCcop_standsFor (fd := fd) (fl := fl) (w.getLsbD 4) (w.extractLsb' 0 4)
    rwa [ccop_fields hop11] at this
  all_goals
    refine .reserved (reservedCode_iff.2 ?_)
    simp only [field_eq_iff] at *
    omega

theorem decode000_standsFor (hop : w.extractLsb' 8 8 = 0o000#8) : StandsFor fd fl w (decode000 w) := by
  unfold decode000
  split
  case h_1 hquarter => exact decodeOperate_standsFor (field_eq_append hop hquarter)
  case h_3 hquarter => exact decode0002_standsFor (field_eq_append hop hquarter)
  all_goals exact ⟨encSingle_dstField (field_eq_append hop ‹_›), rfl, rfl⟩

theorem decodeSingle_standsFor (hgroup : w.extractLsb' 12 4 = 0o00#4) (h8 : 0o12 ≤ w.toNat / 2 ^ 8 % 2 ^ 4) :
    StandsFor fd fl w (decodeSingle w) := by
  unfold decodeSingle
  split
  case h_13 hmark => exact ⟨append_low_eq_self (field_eq_append hgroup hmark), rfl, rfl⟩
  case h_20 =>
    refine .reserved (reservedCode_iff.2 ?_)
    simp only [imp_false, field_eq_iff] at *
    omega
  all_goals exact ⟨encSingle_dstField (field_eq_append hgroup ‹_›), rfl, rfl⟩

theorem decodeGroup0_standsFor (hgroup : w.extractLsb' 12 4 = 0o00#4) : StandsFor fd fl w (decodeGroup0 w) := by
  unfold decodeGroup0
  split
  case h_1 hdigits => exact decode000_standsFor (field_eq_append hgroup hdigits)
  case h_9 | h_10 =>
    refine ⟨encRegOp_fields ?_, rfl, rfl⟩
    simp only [field_eq_iff] at *
    omega
  case h_11 =>
    refine decodeSingle_standsFor hgroup ?_
    simp only [imp_false, field_eq_iff] at *
    omega
  all_goals exact ⟨append_low_eq_self (field_eq_append hgroup ‹_›), rfl, rfl⟩

/-! ## Bits 15:12 = 7 and 8 -/

theorem decodeGroup7_standsFor (hgroup : w.extractLsb' 12 4 = 0o07#4) : StandsFor fd fl w (decodeGroup7 w) := by
  unfold decodeGroup7
  split
  case h_6 hsob =>
    refine ⟨?_, rfl, rfl⟩
    rw [encode, regField, Reg.bits_ofBits]
    exact append_low_eq_self (field_eq_append (field_eq_append hgroup hsob) rfl)
  case h_7 =>
    refine .reserved (reservedCode_iff.2 ?_)
    simp only [imp_false, field_eq_iff] at *
    omega
  all_goals exact ⟨encRegOp_fields (field_eq_append hgroup ‹_›), rfl, rfl⟩

theorem decodeSingleByte_standsFor (hgroup : w.extractLsb' 12 4 = 0o10#4) (h8 : 0o12 ≤ w.toNat / 2 ^ 8 % 2 ^ 4) :
    StandsFor fd fl w (decodeSingleByte w) := by
  unfold decodeSingleByte
  split
  case h_17 =>
    refine .reserved (reservedCode_iff.2 ?_)
    simp only [imp_false, field_eq_iff] at *
    omega
  all_goals exact ⟨encSingle_dstField (field_eq_append hgroup ‹_›), rfl, rfl⟩

theorem decodeGroup8_standsFor (hgroup : w.extractLsb' 12 4 = 0o10#4) : StandsFor fd fl w (decodeGroup8 w) := by
  unfold decodeGroup8
  split
  case h_11 =>
    refine decodeSingleByte_standsFor hgroup ?_
    simp only [imp_false, field_eq_iff] at *
    omega
  all_goals exact ⟨append_low_eq_self (field_eq_append hgroup ‹_›), rfl, rfl⟩

/-! ## Floating point -/

section
variable (hgroup : w.extractLsb' 12 4 = 0o17#4)
include hgroup

theorem decodeFloat0_standsFor (hfoc : w.extractLsb' 8 4 = 0o00#4) : StandsFor fd fl w (decodeFloat0 w) := by
  unfold decodeFloat0
  split
  case h_1 hquarter =>
    have hop : w.extractLsb' 6 10 = 0o1700#10 := field_eq_append (field_eq_append hgroup hfoc) hquarter
    split
    case h_6 =>
      refine ⟨rfl, illegalFloatCode_iff.2 ?_, rfl⟩
      simp only [imp_false, field_eq_iff] at *
      omega
    all_goals exact ⟨append_eq_self hop ‹_›, rfl, rfl⟩
  all_goals exact ⟨encFloatSingle_dstField hgroup (field_eq_append hfoc ‹_›), rfl, rfl⟩

theorem decodeFloat1_standsFor (hfoc : w.extractLsb' 8 4 = 0o01#4) : StandsFor fd fl w (decodeFloat1 fd w) := by
  unfold decodeFloat1
  split <;> cases fd
  all_goals exact ⟨encFloatSingle_dstField hgroup (field_eq_append hfoc ‹_›), rfl, rfl⟩

/-- The instructions that FD and FL choose from share one code, so that each row is one case for each setting of the two. -/
theorem decodeFloat_standsFor : StandsFor fd fl w (decodeFloat fd fl w) := by
  unfold decodeFloat
  split
  case h_1 hfoc => exact decodeFloat0_standsFor hgroup hfoc
  case h_2 hfoc => exact decodeFloat1_standsFor hgroup hfoc
  case h_16 =>
    have hfoc : w.extractLsb' 8 4 = 0o17#4 := by
      simp only [imp_false, field_eq_iff] at *
      omega
    cases fd <;> exact ⟨encFloat_fields hgroup hfoc, rfl, rfl⟩
  all_goals cases fd <;> cases fl <;> exact ⟨encFloat_fields hgroup ‹_›, rfl, rfl⟩

end

/-! ## Every word -/

theorem decode_standsFor (fd fl : Bool) (w : Word) : StandsFor fd fl w (decode fd fl w) := by
  unfold decode
  split
  case h_1 hgroup => exact decodeGroup0_standsFor hgroup
  case h_8 hgroup => exact decodeGroup7_standsFor hgroup
  case h_9 hgroup => exact decodeGroup8_standsFor hgroup
  case h_16 =>
    refine decodeFloat_standsFor ?_
    simp only [imp_false, field_eq_iff] at *
    omega
  all_goals exact ⟨encDouble_fields ‹_›, rfl, rfl⟩

end

/-- Settles O2, by the split of the words along the decoder: bits 15:12, then the parts of each group. -/
theorem encodeInvertsDecode : Obligations.EncodeInvertsDecode := by
  intro fd fl w
  obtain ⟨hencode, hwf, hfits⟩ := decode_standsFor fd fl w
  exact ⟨hencode, hwf, hfits⟩

end Sys2Proof
end

section
/-! PROOFS. A register moved by an addressing mode, the kernel stack check, and what both leave (40 R252, R259 to R261). -/

namespace Sys2Proof.Machine

/-! ## Amounts -/

theorem add_ofInt_natCast (x : Word) (n : Nat) : x + BitVec.ofInt 16 n = x + BitVec.ofNat 16 n := by
  rw [BitVec.ofInt_natCast]

theorem add_ofInt_neg (x : Word) (n : Nat) : x + BitVec.ofInt 16 (-(n : Int)) = x - BitVec.ofNat 16 n := by
  rw [BitVec.ofInt_neg, BitVec.ofInt_natCast, BitVec.sub_eq_add_neg]

/-- A pointer steps by 2, forward and back. -/
theorem add_ofInt_two (x : Word) : x + BitVec.ofInt 16 2 = x + 2#16 := add_ofInt_natCast x 2

theorem add_ofInt_neg_two (x : Word) : x + BitVec.ofInt 16 (-2) = x - 2#16 := add_ofInt_neg x 2

/-! ## A register moved -/

/-- The state after an addressing mode moved a register by a signed amount. -/
def State.moved (s : State) (r : Reg) (amount : Int) : State :=
  let t := recordMmr1 r.bits (BitVec.ofInt 5 amount) (s.stepReg r (s.reg r + BitVec.ofInt 16 amount))
  if r = .pc ∧ amount < 0 then t.faultPrefetch else t

theorem run_moveReg_moved (r : Reg) (amount : Int) (s : State) : moveReg r amount s = .ok () (s.moved r amount) := rfl

theorem reg_congr {s t : State} (r : Reg) (hps : t.ps = s.ps) (hregs : t.regs = s.regs) : t.reg r = s.reg r := by
  have hgpr (n : Fin 6) : t.gprN n = s.gprN n := by unfold State.gprN State.gprSlot; rw [hps, hregs]
  cases r with
  | sp => unfold State.reg State.stackPtr State.curMode; rw [hps, hregs]
  | pc => exact congrArg Regs.pc hregs
  | r0 | r1 | r2 | r3 | r4 | r5 => exact hgpr _

/-- Writing a stack pointer, and stepping a register, change the registers only. -/
theorem setStackPtr_eq (s : State) (m : BitVec 2) (v : Word) :
    s.setStackPtr m v = { s with regs := (s.setStackPtr m v).regs } := by
  unfold State.setStackPtr
  split <;> (try split) <;> rfl

theorem stepReg_eq (s : State) (r : Reg) (v : Word) : s.stepReg r v = { s with regs := (s.stepReg r v).regs } := by
  cases r with
  | sp => exact setStackPtr_eq s _ v
  | pc | r0 | r1 | r2 | r3 | r4 | r5 => rfl

theorem reg_stepReg (s : State) (r : Reg) (v : Word) : (s.stepReg r v).reg r = v := by
  by_cases hr : r = .pc
  · subst hr; rfl
  · rw [stepReg_of_ne v hr, State.reg_setReg, if_pos rfl]

section
variable (s : State) (r : Reg) (amount : Int)

/-- The PC moved forward, and every other register, is stepped and recorded in MMR1. -/
theorem moved_of_not_back (h : ¬(r = .pc ∧ amount < 0)) : s.moved r amount =
    recordMmr1 r.bits (BitVec.ofInt 5 amount) (s.stepReg r (s.reg r + BitVec.ofInt 16 amount)) := if_neg h

theorem moved_of_ne_pc (h : r ≠ .pc) : s.moved r amount =
    recordMmr1 r.bits (BitVec.ofInt 5 amount) (s.setReg r (s.reg r + BitVec.ofInt 16 amount)) := by
  rw [moved_of_not_back s r amount fun hback => h hback.1, stepReg_of_ne _ h]

/-- The PC moved back discards the prefetched word too (70 R761). -/
theorem moved_pc_back (h : amount < 0) : s.moved .pc amount =
    { recordMmr1 7#3 (BitVec.ofInt 5 amount) (s.setPc (s.regs.pc + BitVec.ofInt 16 amount)) with
      flow := { s.flow with prefetchFault := true } } := by
  have hback : s.moved .pc amount =
      (recordMmr1 7#3 (BitVec.ofInt 5 amount) (s.setPc (s.regs.pc + BitVec.ofInt 16 amount))).faultPrefetch :=
    if_pos ⟨rfl, h⟩
  rw [hback, State.faultPrefetch, recordMmr1_flow, State.setPc_flow]

/-- Moving a register changes the registers, MMR1 and the mark that the PC was written. -/
theorem moved_eq : s.moved r amount = { s with
    regs := (s.stepReg r (s.reg r + BitVec.ofInt 16 amount)).regs
    mmu := { s.mmu with mmr1 := (s.moved r amount).mmu.mmr1 }
    flow := { s.flow with prefetchFault := (s.moved r amount).flow.prefetchFault } } := by
  unfold State.moved
  dsimp only
  rw [recordMmr1_eq, stepReg_eq]
  split <;> rfl

@[simp] theorem moved_reg : (s.moved r amount).reg r = s.reg r + BitVec.ofInt 16 amount := by
  rw [← reg_stepReg s r (s.reg r + BitVec.ofInt 16 amount)]
  exact reg_congr r (by rw [moved_eq, State.stepReg_ps]) (by rw [moved_eq])

@[simp] theorem moved_curMode : (s.moved r amount).curMode = s.curMode := by rw [moved_eq]; rfl
@[simp] theorem moved_mem : (s.moved r amount).mem = s.mem := by rw [moved_eq]

theorem word_moved (a : Word) : (s.moved r amount).word a = s.word a := State.word_congr (moved_mem s r amount) a

end

theorem State.PlainAt.moved {s : State} {a : Word} (h : s.PlainAt a) (r : Reg) (amount : Int) : (s.moved r amount).PlainAt a :=
  h.congr (by rw [moved_eq]) (by rw [moved_eq]) (by rw [moved_eq])

/-! ## The kernel stack check -/

/-- The state after the stack check of modes 4 and 5. -/
def State.stackChecked (s : State) (r : Reg) (va : Word) : State :=
  if r = .sp ∧ s.curMode = kernel ∧ va < 0o400#16 then s.requestYellow else s

theorem run_checkStackMode (r : Reg) (va : Word) (s : State) :
    checkStackMode r va s = .ok () (s.stackChecked r va) := by
  unfold checkStackMode State.stackChecked
  by_cases hr : r = .sp
  · simp only [hr, if_true, true_and, run_stackCheck]
  · simp only [hr, if_false, false_and, run_pure]

section
variable (s : State) (r : Reg) (va : Word)

theorem stackChecked_of_ne (h : r ≠ .sp) : s.stackChecked r va = s := if_neg fun hsp => h hsp.1

/-- The check only requests the yellow stack trap. -/
theorem stackChecked_eq : s.stackChecked r va = { s with flow := { s.flow with
    pendYellow := s.flow.pendYellow || (decide (r = .sp) && (decide (s.curMode = kernel) && decide (va < 0o400#16))) } } := by
  unfold State.stackChecked
  by_cases h : r = .sp ∧ s.curMode = kernel ∧ va < 0o400#16
  · obtain ⟨hr, hm, hva⟩ := h
    simp [hr, hm, hva, State.requestYellow]
  · have hfalse : (decide (r = .sp) && (decide (s.curMode = kernel) && decide (va < 0o400#16))) = false := by
      simpa only [Bool.decide_and] using decide_eq_false h
    rw [if_neg h, hfalse, Bool.or_false]

theorem word_stackChecked (a : Word) : (s.stackChecked r va).word a = s.word a :=
  State.word_congr (by rw [stackChecked_eq]) a

end

theorem State.PlainAt.stackChecked {s : State} {a : Word} (h : s.PlainAt a) (r : Reg) (va : Word) :
    (s.stackChecked r va).PlainAt a :=
  h.congr (by rw [stackChecked_eq]) (by rw [stackChecked_eq]) (by rw [stackChecked_eq])

end Sys2Proof.Machine
end

section
/-! PROOFS. The effective address of each mode, for every register, with the pointer and index words in plain memory
(40 R252 to R259). -/

namespace Sys2Proof.Machine

section
variable (s : State) (r : Reg) (n : Nat)

/-- Mode 1. -/
theorem effectiveAddress_deferred : effectiveAddress ⟨.deferred, r⟩ n s = .ok (directSpace r, s.reg r) s := rfl

/-- Mode 2: the register as it was, then stepped. -/
theorem effectiveAddress_autoInc :
    effectiveAddress ⟨.autoInc, r⟩ n s = .ok (directSpace r, s.reg r) (s.moved r (stepSize r n)) :=
  (run_look_bind _ _ s).trans (run_bind_ok (run_moveReg_moved r _ s))

/-- Mode 4: the register stepped back, checked as a stack reference. -/
theorem effectiveAddress_autoDec : effectiveAddress ⟨.autoDec, r⟩ n s =
    .ok (directSpace r, s.reg r + BitVec.ofInt 16 (-(stepSize r n : Int)))
      ((s.moved r (-(stepSize r n : Int))).stackChecked r (s.reg r + BitVec.ofInt 16 (-(stepSize r n : Int)))) := by
  rw [← moved_reg]
  exact run_bind_ok (run_checkStackMode r _ _)

/-- Mode 3: the word at the register, which steps by 2. -/
theorem effectiveAddress_autoIncDeferred (h : s.PlainAt (s.reg r)) :
    effectiveAddress ⟨.autoIncDeferred, r⟩ n s = .ok (.d, s.word (s.reg r)) (s.moved r 2) := by
  rw [← word_moved s r 2]
  exact run_bind_ok (readCur_plain (h.moved r 2) _)

/-- Mode 5: the word at the register stepped back by 2, which is checked as a stack reference. -/
theorem effectiveAddress_autoDecDeferred (h : s.PlainAt (s.reg r - 2#16)) :
    effectiveAddress ⟨.autoDecDeferred, r⟩ n s =
      .ok (.d, s.word (s.reg r - 2#16)) ((s.moved r (-2)).stackChecked r (s.reg r - 2#16)) := by
  have hreg : (s.moved r (-2)).reg r = s.reg r - 2#16 := by rw [moved_reg, add_ofInt_neg_two]
  rw [← word_moved s r (-2), ← word_stackChecked _ r (s.reg r - 2#16), ← hreg]
  exact (run_bind_ok (run_checkStackMode r _ _)).trans
    (run_bind_ok (readCur_plain ((hreg ▸ h.moved r (-2)).stackChecked r _) _))

/-- Mode 6: the index word at the PC, added to the register after the PC passed it. -/
theorem effectiveAddress_index (h : s.PlainAt s.regs.pc) : effectiveAddress ⟨.index, r⟩ n s =
    .ok (.d, (s.setPc (s.regs.pc + 2#16)).reg r + s.word s.regs.pc) (s.setPc (s.regs.pc + 2#16)) :=
  run_bind_ok (fetchStream_plain h)

/-- Mode 7: the word at the address of mode 6. -/
theorem effectiveAddress_indexDeferred (h : s.PlainAt s.regs.pc)
    (hp : s.PlainAt ((s.setPc (s.regs.pc + 2#16)).reg r + s.word s.regs.pc)) :
    effectiveAddress ⟨.indexDeferred, r⟩ n s =
      .ok (.d, s.word ((s.setPc (s.regs.pc + 2#16)).reg r + s.word s.regs.pc)) (s.setPc (s.regs.pc + 2#16)) := by
  have hp' : (s.setPc (s.regs.pc + 2#16)).PlainAt ((s.setPc (s.regs.pc + 2#16)).reg r + s.word s.regs.pc) :=
    hp.congr rfl rfl rfl
  exact (run_bind_ok (fetchStream_plain h)).trans (run_bind_ok (readCur_plain hp' _))

/-- An index word leaves every register but the PC. -/
theorem setPc_reg_of_ne (v : Word) (h : r ≠ .pc) : (s.setPc v).reg r = s.reg r := by
  cases r <;> first | rfl | exact absurd rfl h

theorem directSpace_of_ne (h : r ≠ .pc) : directSpace r = .d := if_neg h

/-- R0 to R5 step by the size of the operand. -/
theorem stepSize_general (hsp : r ≠ .sp) (hpc : r ≠ .pc) : stepSize r n = n := by
  rw [stepSize, if_neg hpc, if_neg hsp]

end

/-- Settles O19: the modes of any register, read for R0 to R5. -/
theorem registerAddressing : Obligations.RegisterAddressing := by
  intro s r n hsp hpc _
  have hspace : directSpace r = .d := directSpace_of_ne r hpc
  have hsize : stepSize r n = n := stepSize_general r n hsp hpc
  have hindex : (s.setPc (s.regs.pc + 2#16)).reg r = s.reg r := setPc_reg_of_ne s r _ hpc
  refine ⟨?_, ?_, ?_, fun h => ?_, fun h => ?_, fun h => ?_, fun h hp => ?_⟩
  · rw [effectiveAddress_deferred, hspace]
  · rw [effectiveAddress_autoInc, hspace, hsize, moved_of_ne_pc s r n hpc, add_ofInt_natCast, BitVec.ofInt_natCast]
  · rw [effectiveAddress_autoDec, hspace, hsize, stackChecked_of_ne _ r _ hsp, moved_of_ne_pc s r _ hpc, add_ofInt_neg]
  · rw [effectiveAddress_autoIncDeferred s r n h, moved_of_ne_pc s r 2 hpc, add_ofInt_two]
    rfl
  · rw [effectiveAddress_autoDecDeferred s r n h, stackChecked_of_ne _ r _ hsp, moved_of_ne_pc s r _ hpc,
      add_ofInt_neg_two]
    rfl
  · rw [effectiveAddress_index s r n h, hindex]
  · rw [effectiveAddress_indexDeferred s r n h (by rwa [hindex]), hindex]

/-- The PC steps by 2 whatever the size. -/
theorem stepSize_pc (n : Nat) : stepSize .pc n = 2 := rfl

/-- Settles O20: the same for the PC, whose operands of modes 1, 2 and 4 are in instruction space. -/
theorem pcAddressing : Obligations.PcAddressing := by
  intro s n
  refine ⟨rfl, fun h => ?_, ?_, ?_, fun h => ?_, fun h => ?_, fun h hp => ?_⟩
  · rw [effectiveAddress_autoDecDeferred s .pc n h, stackChecked_of_ne _ .pc _ (by decide), moved_pc_back s _ (by decide),
      add_ofInt_neg_two]
    rfl
  · rw [effectiveAddress_autoInc, stepSize_pc, moved_of_not_back s .pc _ (by decide), add_ofInt_natCast]
    rfl
  · rw [effectiveAddress_autoDec, stepSize_pc, stackChecked_of_ne _ .pc _ (by decide), moved_pc_back s _ (by decide),
      add_ofInt_neg, add_ofInt_neg]
    rfl
  · rw [effectiveAddress_autoIncDeferred s .pc n h, moved_of_not_back s .pc 2 (by decide), add_ofInt_two]
    rfl
  · exact effectiveAddress_index s .pc n h
  · exact effectiveAddress_indexDeferred s .pc n h hp

/-- The state after mode 4 or 5 with the SP. -/
theorem moved_sp_stackChecked (s : State) (amount : Int) (va : Word) : (s.moved .sp amount).stackChecked .sp va =
    { recordMmr1 6#3 (BitVec.ofInt 5 amount) (s.setReg .sp (s.reg .sp + BitVec.ofInt 16 amount)) with flow := { s.flow with
      pendYellow := s.flow.pendYellow || (decide (s.curMode = kernel) && decide (va < 0o400#16)) } } := by
  have hflow : (s.moved .sp amount).flow = s.flow := by
    rw [moved_of_ne_pc s .sp amount (by decide), recordMmr1_flow, State.setReg_flow_of_ne _ _ _ (by decide)]
  rw [stackChecked_eq, moved_curMode, hflow, moved_of_ne_pc s .sp amount (by decide)]
  simp only [decide_true, Bool.true_and]
  rfl

/-- Settles O21: the same for the SP, whose steps back are checked, then a push and a pop. -/
theorem stackAddressing : Obligations.StackAddressing := by
  rintro s sp rfl
  have hne : Reg.sp ≠ .pc := by decide
  have hindex : (s.setPc (s.regs.pc + 2#16)).reg .sp = s.reg .sp := setPc_reg_of_ne s .sp _ hne
  refine ⟨fun p hp => ?_, fun v h => push_plain v h, fun h => pop_plain h⟩
  have hsize : stepSize .sp p.1 = p.2 := by
    revert p
    decide
  refine ⟨effectiveAddress_deferred s .sp p.1, ?_, fun h => ?_, ⟨_, ?_, rfl⟩, fun h => ⟨_, ?_, rfl⟩, fun h => ?_,
    fun h hp => ?_⟩
  · rw [effectiveAddress_autoInc, hsize, moved_of_ne_pc s .sp _ hne, add_ofInt_natCast, BitVec.ofInt_natCast]
    rfl
  · rw [effectiveAddress_autoIncDeferred s .sp p.1 h, moved_of_ne_pc s .sp 2 hne, add_ofInt_two]
    rfl
  · rw [effectiveAddress_autoDec, hsize, moved_sp_stackChecked, add_ofInt_neg]
    rfl
  · rw [effectiveAddress_autoDecDeferred s .sp p.1 h, moved_sp_stackChecked, add_ofInt_neg_two]
    rfl
  · rw [effectiveAddress_index s .sp p.1 h, hindex]
  · rw [effectiveAddress_indexDeferred s .sp p.1 h (by rwa [hindex]), hindex]

end Sys2Proof.Machine
end

section
/-! PROOFS. What one read of virtual memory leaves: one bus cycle at most (20_memory R110, R130, R151). -/

namespace Sys2Proof.Machine

/-- One bus cycle at most was made, and nothing changed but RBUF, the draw counter, the pending parity interrupt, the answers to
come, and storage by what other masters stored before that cycle. -/
def ReadOnce (s t : State) : Prop :=
  ∃ n, n ≤ 1 ∧ t = { s with
    mem := s.memAfter n
    flow := { s.flow with pendParity := t.flow.pendParity }
    answers := s.answers.drop n
    io := { s.io with rx := t.io.rx }
    draws := t.draws }

/-- A register inside the chip is read without a bus cycle. -/
theorem readInt_ok_draws {s t : State} {r : IntReg} {w : Word} (h : readInt r s = .ok w t) : t = { s with draws := t.draws } := by
  unfold readInt at h
  split at h <;> (try split at h) <;> cases h <;> rfl

/-- Reading the console line may take the character from RBUF. -/
theorem readSerial_ok_rx {s t : State} {r : SerialReg} {w : Word} (h : readSerial r s = .ok w t) :
    t = { s with io := { s.io with rx := t.io.rx }, draws := t.draws } := by
  unfold readSerial at h
  cases r with
  | rbuf =>
    cases hrx : s.io.rx with
    | none => simp only [hrx] at h; cases h; rfl
    | some c => simp only [hrx] at h; cases h; rfl
  | rcsr | xcsr | xbuf => cases h; rfl

theorem physReadWord_once {s t : State} {a : PAddr} {w : Word} (h : physReadWord a s = .ok w t) : ReadOnce s t := by
  unfold physReadWord at h
  split at h
  · refine ⟨0, Nat.zero_le 1, ?_⟩
    rw [readInt_ok_draws h]
    simp
  · refine ⟨1, le_rfl, ?_⟩
    dsimp only at h
    rw [← answered_memAfter, ← tail_eq_drop_one]
    split at h
    · cases h
    · split at h
      · rw [readSerial_ok_rx h]
        split <;> rfl
      · cases h; split <;> rfl
      · cases h; split <;> rfl

theorem physRead_once {s t : State} {sz : Size} {a : PAddr} {w : Word} (h : physRead sz a s = .ok w t) : ReadOnce s t := by
  obtain ⟨v, u, hread, hrest⟩ := bind_eq_ok h
  cases sz <;> (cases hrest; exact physReadWord_once hread)

/-- A read of virtual memory that succeeds was aligned, translated and then made. -/
theorem memRead_ok_steps {s t : State} {sp : Space} {m : BitVec 2} {sz : Size} {va x : Word} {acc : Access}
    (h : memRead sp m sz va acc s = .ok x t) :
    ∃ pa u, translate sp m va acc s = .ok pa u ∧ physRead sz pa u = .ok x t := by
  obtain ⟨_, s0, haligned, hrest⟩ := bind_eq_ok h
  cases checkAligned_ok haligned
  exact bind_eq_ok hrest

theorem memRead_once {s t : State} {sp : Space} {m : BitVec 2} {sz : Size} {va x : Word} {acc : Access} (hacc : acc ≠ .write)
    (h : memRead sp m sz va acc s = .ok x t) : ReadOnce s t := by
  obtain ⟨pa, u, htranslate, hread⟩ := memRead_ok_steps h
  cases translate_read_ok hacc htranslate
  exact physRead_once hread

/-! ## Reading an operand -/

/-- Reading a register changes nothing; reading memory is one read of virtual memory. -/
theorem readPlace_once {s t : State} {sz : Size} {p : Place} {x : Word} {acc : Access} (hacc : acc ≠ .write)
    (h : readPlace sz p acc s = .ok x t) : ReadOnce s t := by
  cases p with
  | reg r => cases h; exact ⟨0, Nat.zero_le 1, by simp⟩
  | mem sp a => exact memRead_once hacc h

theorem readPlace_onlyAborted {s t : State} {sz : Size} {p : Place} {acc : Access} {e : Exit} (hacc : acc ≠ .write)
    (h : readPlace sz p acc s = .error e t) : OnlyAborted e s t := by
  cases p with
  | reg r => cases h
  | mem sp a => exact memRead_error hacc h

/-- An aborted read leaves the PS and the registers, whatever it is checked as. -/
theorem memRead_error_regs {s t : State} {sp : Space} {m : BitVec 2} {sz : Size} {va : Word} {acc : Access} {e : Exit}
    (h : memRead sp m sz va acc s = .error e t) : t.ps = s.ps ∧ t.regs = s.regs := by
  have hkept {u : State} (ha : OnlyAborted e u t) : t.ps = u.ps ∧ t.regs = u.regs := by
    obtain ⟨⟨n, _, ht⟩, _⟩ := ha
    exact ⟨by rw [ht], by rw [ht]⟩
  obtain h | ⟨_, u, haligned, h⟩ := bind_eq_error h
  · unfold checkAligned at h
    split at h <;> cases h
    exact ⟨rfl, rfl⟩
  · cases checkAligned_ok haligned
    obtain h | ⟨pa, u, htranslate, h⟩ := bind_eq_error h
    · exact hkept (translate_error h)
    · rw [translate_ok_mmu htranslate] at h
      obtain h | ⟨w, v, _, h⟩ := bind_eq_error h
      · have hread := hkept (physReadWord_error h)
        exact hread
      · cases sz <;> cases h

theorem readPlace_error_regs {s t : State} {sz : Size} {p : Place} {acc : Access} {e : Exit}
    (h : readPlace sz p acc s = .error e t) : t.ps = s.ps ∧ t.regs = s.regs := by
  cases p with
  | reg r => cases h
  | mem sp a => exact memRead_error_regs h

/-! ## What is read -/

/-- A byte operand of a register is its low byte. -/
theorem regPart_byte (v : Word) : regPart .byte v = v &&& 0o377#16 := selectByte_even (a := 0#22) rfl v

/-- An odd address is one more than its word's. -/
theorem wordAddr_toNat_succ {a : PAddr} (h : a.getLsbD 0 = true) : (wordAddr a).toNat + 1 = a.toNat := by
  have hodd : wordAddr a + 1#22 = a := by
    refine BitVec.eq_of_getLsbD_eq fun i _ => ?_
    rw [getLsbD_odd (wordAddr_even_bit a), getLsbD_wordAddr]
    by_cases hi : i = 0
    · simp [hi, h]
    · simp [hi]
  have hlt := Memory.wordAddr_toNat_lt a
  calc (wordAddr a).toNat + 1 = (wordAddr a + 1#22).toNat := by
        rw [BitVec.toNat_add, BitVec.toNat_ofNat, Nat.mod_eq_of_lt (a := 1) (by decide), Nat.mod_eq_of_lt hlt]
    _ = a.toNat := by rw [hodd]

/-- The byte selected from the word that holds an address is the byte stored there (20_memory R101). -/
theorem selectByte_readWord (m : Memory) (a : PAddr) : selectByte a (m.readWord (wordAddr a).toNat) = m.read a.toNat := by
  unfold selectByte Memory.readWord
  cases h : a.getLsbD 0 with
  | true =>
    rw [if_pos rfl, wordAddr_toNat_succ h]
    exact BitVec.extractLsb'_append_eq_left
  | false =>
    rw [if_neg Bool.false_ne_true, wordAddr_of_even h]
    exact BitVec.extractLsb'_append_eq_right

/-- A read of storage gives the word there, with what other masters stored before it. -/
theorem physReadWord_storage_ok {s t : State} {a : PAddr} {w : Word} (hd : s.deviceAt a = .storage)
    (h : physReadWord a s = .ok w t) : w = s.answered.mem.readWord (wordAddr a).toNat := by
  unfold physReadWord at h
  rw [hd] at h
  dsimp only at h
  split at h
  · cases h
  · cases h
    split <;> rfl

/-- The operand of a size at an address of storage. -/
def Memory.load (m : Memory) (sz : Size) (a : PAddr) : Word :=
  match sz with
  | .word => m.readWord (wordAddr a).toNat
  | .byte => (m.read a.toNat).setWidth 16

/-- The operand read in storage is the word or the byte there. -/
theorem readPlace_storage_ok {s t u : State} {sz : Size} {sp : Space} {a x : Word} {acc : Access} {pa : PAddr}
    (htranslate : translate sp s.curMode a acc s = .ok pa u) (hd : u.deviceAt pa = .storage)
    (h : readPlace sz (.mem sp a) acc s = .ok x t) : x = u.answered.mem.load sz pa := by
  obtain ⟨pa', u', htranslate', hread⟩ := memRead_ok_steps h
  obtain ⟨rfl, rfl⟩ : pa = pa' ∧ u = u' := by
    rw [htranslate] at htranslate'
    cases htranslate'
    exact ⟨rfl, rfl⟩
  obtain ⟨w, v, hword, hrest⟩ := bind_eq_ok hread
  have hw := physReadWord_storage_ok hd hword
  cases sz with
  | word => cases hrest; exact hw
  | byte =>
    obtain ⟨rfl, -⟩ : (selectByte pa w).setWidth 16 = x ∧ v = t := by injection hrest; exact ⟨‹_›, ‹_›⟩
    rw [hw, selectByte_readWord]
    rfl

end Sys2Proof.Machine
end

section
/-! PROOFS. What evaluating an operand's address leaves, whether it succeeds or aborts (40 R252, R268; 10_state R55;
20_memory R139, R151, R156). -/

namespace Sys2Proof.Machine

/-! ## The state but the registers -/

/-- Besides the registers nothing changed but MMR0, MMR1, the yellow stack and parity requests, the mark that the PC was written,
RBUF, the draw counter, the answers to come, and storage by what other masters stored in the cycles between. -/
def Addressed (s t : State) : Prop :=
  ∃ n, t = { s with
    regs := t.regs
    mmu := { s.mmu with mmr0 := t.mmu.mmr0, mmr1 := t.mmu.mmr1 }
    mem := s.memAfter n
    flow := { s.flow with pendYellow := t.flow.pendYellow, pendParity := t.flow.pendParity
                          prefetchFault := t.flow.prefetchFault }
    answers := s.answers.drop n
    io := { s.io with rx := t.io.rx }
    draws := t.draws }

theorem Addressed.refl (s : State) : Addressed s s := ⟨0, by simp⟩

theorem Addressed.trans {a b c : State} (h : Addressed a b) (h' : Addressed b c) : Addressed a c := by
  obtain ⟨n, h⟩ := h
  obtain ⟨m, h'⟩ := h'
  have hmem : b.memAfter m = a.memAfter (n + m) := memAfter_add m (by rw [h]) (by rw [h]) (by rw [h])
  refine ⟨n + m, ?_⟩
  rw [hmem] at h'
  rw [h] at h'
  simpa only [List.drop_drop] using h'

theorem ReadOnce.addressed {s t : State} (h : ReadOnce s t) : Addressed s t := by
  obtain ⟨n, _, ht⟩ := h
  exact ⟨n, by rw [ht]⟩

theorem OnlyAborted.addressed {s t : State} {e : Exit} (h : OnlyAborted e s t) : Addressed s t := by
  obtain ⟨⟨n, _, ht⟩, _⟩ := h
  exact ⟨n, by rw [ht]⟩

theorem addressed_moved (s : State) (r : Reg) (amount : Int) : Addressed s (s.moved r amount) :=
  ⟨0, by rw [moved_eq]; simp⟩

theorem addressed_stackChecked (s : State) (r : Reg) (va : Word) : Addressed s (s.stackChecked r va) :=
  ⟨0, by rw [stackChecked_eq]; simp⟩

theorem addressed_setPc (s : State) (v : Word) : Addressed s (s.setPc v) := ⟨0, by simp [State.setPc]⟩

theorem Addressed.ps {s t : State} (h : Addressed s t) : t.ps = s.ps := by
  obtain ⟨n, h⟩ := h
  rw [h]

/-! ## The registers -/

/-- Only this register changed. -/
def OnlyReg (r : Reg) (s t : State) : Prop := t.regs = (s.setReg r (t.reg r)).regs

/-- Only the PC changed. -/
def OnlyPc (s t : State) : Prop := t.regs = { s.regs with pc := t.regs.pc }

theorem OnlyReg.congr {r : Reg} {s t u : State} (h : OnlyReg r s t) (hps : u.ps = t.ps) (hregs : u.regs = t.regs) :
    OnlyReg r s u := by
  unfold OnlyReg
  rw [reg_congr r hps hregs, hregs]
  exact h

theorem onlyReg_moved (s : State) (r : Reg) (amount : Int) : OnlyReg r s (s.moved r amount) := by
  have hregs (v : Word) : (s.stepReg r v).regs = (s.setReg r v).regs := by cases r <;> rfl
  unfold OnlyReg
  rw [moved_reg, moved_eq]
  exact hregs _

theorem onlyReg_moved_stackChecked (s : State) (r : Reg) (amount : Int) (va : Word) :
    OnlyReg r s ((s.moved r amount).stackChecked r va) :=
  (onlyReg_moved s r amount).congr (by rw [stackChecked_eq]) (by rw [stackChecked_eq])

theorem ReadOnce.regs {s t : State} (h : ReadOnce s t) : t.ps = s.ps ∧ t.regs = s.regs := by
  obtain ⟨n, _, ht⟩ := h
  exact ⟨by rw [ht], by rw [ht]⟩

theorem OnlyAborted.regs {s t : State} {e : Exit} (h : OnlyAborted e s t) : t.ps = s.ps ∧ t.regs = s.regs := by
  obtain ⟨⟨n, _, ht⟩, _⟩ := h
  exact ⟨by rw [ht], by rw [ht]⟩

theorem ReadOnce.mmr0 {s t : State} (h : ReadOnce s t) : t.mmu.mmr0 = s.mmu.mmr0 := by
  obtain ⟨n, _, ht⟩ := h
  rw [ht]

theorem moved_mmr0 (s : State) (r : Reg) (amount : Int) : (s.moved r amount).mmu.mmr0 = s.mmu.mmr0 := by rw [moved_eq]

theorem stackChecked_mmr0 (s : State) (r : Reg) (va : Word) : (s.stackChecked r va).mmu.mmr0 = s.mmu.mmr0 := by
  rw [stackChecked_eq]

end Sys2Proof.Machine
end

section
/-! PROOFS. Evaluating an operand's address, mode by mode: what the last reference of each mode is made from. -/

namespace Sys2Proof.Machine

section
variable {s t : State} {r : Reg} {n : Nat}

/-! ## The last reference of the deferred and index modes -/

/-- The state from which mode 5 reads the pointer. -/
def State.movedBack (s : State) (r : Reg) : State := (s.moved r (-2)).stackChecked r (s.reg r - 2#16)

theorem movedBack_reg (s : State) (r : Reg) : (s.movedBack r).reg r = s.reg r - 2#16 := by
  have hback : (s.moved r (-2)).reg r = s.reg r - 2#16 := by rw [moved_reg, add_ofInt_neg_two]
  rw [← hback]
  exact reg_congr r (by rw [State.movedBack, stackChecked_eq]) (by rw [State.movedBack, stackChecked_eq])

theorem effectiveAddress_autoIncDeferred_run (s : State) (r : Reg) (n : Nat) : effectiveAddress ⟨.autoIncDeferred, r⟩ n s =
    (readCur (directSpace r) (s.reg r) >>= fun a => (pure (Space.d, a) : M (Space × Word))) (s.moved r 2) := rfl

theorem effectiveAddress_autoDecDeferred_run (s : State) (r : Reg) (n : Nat) :
    effectiveAddress ⟨.autoDecDeferred, r⟩ n s = (readCur (directSpace r) (s.reg r - 2#16) >>= fun a =>
      (pure (Space.d, a) : M (Space × Word))) (s.movedBack r) := by
  have hback : (s.moved r (-2)).reg r = s.reg r - 2#16 := by rw [moved_reg, add_ofInt_neg_two]
  unfold State.movedBack
  rw [← hback]
  exact run_bind_ok (run_checkStackMode r _ _)

/-- Reading a pointer, when it is read and when it aborts. -/
theorem readPointer_ok {sp : Space} {va : Word} {x : Space × Word}
    (h : (readCur sp va >>= fun a => (pure (Space.d, a) : M (Space × Word))) s = .ok x t) : ReadOnce s t := by
  obtain ⟨a, u, hread, hrest⟩ := bind_eq_ok h
  cases hrest
  exact memRead_once (acc := .read) (by decide) hread

theorem readPointer_error {sp : Space} {va : Word} {e : Exit}
    (h : (readCur sp va >>= fun a => (pure (Space.d, a) : M (Space × Word))) s = .error e t) : OnlyAborted e s t := by
  obtain h | ⟨a, u, _, hrest⟩ := bind_eq_error h
  · exact memRead_error (acc := .read) (by decide) h
  · cases hrest

/-- An index word read: one cycle, and the PC passed it. -/
theorem fetchStream_once {w : Word} (h : fetchStream s = .ok w t) : ∃ u, ReadOnce s u ∧ t = u.advancePc := by
  unfold fetchStream at h
  split at h
  · cases h; exact ⟨_, memRead_once (acc := .read) (by decide) ‹_›, rfl⟩
  · cases h
  · cases h

/-- An index word that aborts: after a bus error the PC passed it all the same (60 R611, R612). -/
theorem fetchStream_error {e : Exit} (h : fetchStream s = .error e t) :
    ∃ u, OnlyAborted e s u ∧ (t = u ∨ t = u.advancePc) := by
  unfold fetchStream at h
  split at h
  · cases h
  · cases h
    refine ⟨_, memRead_error (acc := .read) (by decide) ‹_›, ?_⟩
    split
    · exact .inr rfl
    · exact .inl rfl
  · cases h; exact ⟨_, memRead_error (acc := .read) (by decide) ‹_›, .inl rfl⟩

/-! ## What each mode leaves -/

/-- What an operand's address leaves: only the register its mode steps and the PC changed among the registers. -/
structure Evaluated (stepped : Bool) (r : Reg) (s t : State) : Prop where
  rest : Addressed s t
  regs : t.regs = { (if stepped then s.setReg r (t.reg r) else s).regs with pc := t.regs.pc }

theorem evaluated_refl (s : State) (r : Reg) : Evaluated false r s s := ⟨.refl s, rfl⟩

theorem Addressed.evaluated_of_onlyReg (h : Addressed s t) (hreg : OnlyReg r s t) : Evaluated true r s t :=
  ⟨h, by rw [if_pos rfl, ← hreg]⟩

theorem Addressed.evaluated_of_onlyPc (h : Addressed s t) (hpc : OnlyPc s t) : Evaluated false r s t := ⟨h, hpc⟩

/-- A read after the register was moved. -/
theorem Evaluated.andThen {b : Bool} {u : State} (h : Evaluated b r s u) (hrest : Addressed u t) (hregs : t.regs = u.regs) :
    Evaluated b r s t := by
  refine ⟨h.rest.trans hrest, ?_⟩
  rw [reg_congr r hrest.ps hregs, hregs]
  exact h.regs

theorem evaluated_moved (s : State) (r : Reg) (amount : Int) : Evaluated true r s (s.moved r amount) :=
  (addressed_moved s r amount).evaluated_of_onlyReg (onlyReg_moved s r amount)

theorem evaluated_moved_stackChecked (s : State) (r : Reg) (amount : Int) (va : Word) :
    Evaluated true r s ((s.moved r amount).stackChecked r va) :=
  ((addressed_moved s r amount).trans (addressed_stackChecked _ r va)).evaluated_of_onlyReg
    (onlyReg_moved_stackChecked s r amount va)

theorem evaluated_advancePc (r : Reg) {u : State} (h : Addressed s u) (hregs : u.regs = s.regs) :
    Evaluated false r s u.advancePc := by
  have hpc : OnlyPc s u.advancePc := by unfold OnlyPc; rw [State.advancePc_regs, hregs]
  exact (h.trans (addressed_setPc u _)).evaluated_of_onlyPc hpc

end

/-- The mode steps its register before it makes a reference that can abort. -/
def stepsPointer (m : AddrMode) : Bool := m ∈ [AddrMode.autoIncDeferred, .autoDecDeferred]

/-- The mode steps its register. -/
def stepsRegister (m : AddrMode) : Bool := m ∈ [AddrMode.autoInc, .autoIncDeferred, .autoDec, .autoDecDeferred]

/-- An address that is computed: the mode's step, and MMR0 as it was. -/
theorem effectiveAddress_ok {f : Operand} {n : Nat} {s t : State} {x : Space × Word} (h : effectiveAddress f n s = .ok x t) :
    Evaluated (stepsRegister f.mode) f.reg s t ∧ t.mmu.mmr0 = s.mmu.mmr0 := by
  obtain ⟨m, r⟩ := f
  cases m with
  | register | deferred => cases h; exact ⟨evaluated_refl s r, rfl⟩
  | autoInc => cases h; exact ⟨evaluated_moved s r _, moved_mmr0 s r _⟩
  | autoDec =>
    rw [effectiveAddress_autoDec] at h
    cases h
    exact ⟨evaluated_moved_stackChecked s r _ _, by rw [stackChecked_mmr0, moved_mmr0]⟩
  | autoIncDeferred =>
    have hread := readPointer_ok ((effectiveAddress_autoIncDeferred_run s r n).symm.trans h)
    exact ⟨(evaluated_moved s r 2).andThen hread.addressed hread.regs.2, by rw [hread.mmr0, moved_mmr0]⟩
  | autoDecDeferred =>
    have hread := readPointer_ok ((effectiveAddress_autoDecDeferred_run s r n).symm.trans h)
    exact ⟨(evaluated_moved_stackChecked s r (-2) _).andThen hread.addressed hread.regs.2,
      by rw [hread.mmr0, State.movedBack, stackChecked_mmr0, moved_mmr0]⟩
  | index =>
    obtain ⟨w, u, hfetch, hrest⟩ := bind_eq_ok (m := fetchStream) h
    obtain ⟨v, hread, rfl⟩ := fetchStream_once hfetch
    cases hrest
    exact ⟨evaluated_advancePc r hread.addressed hread.regs.2, hread.mmr0⟩
  | indexDeferred =>
    obtain ⟨w, u, hfetch, hrest⟩ := bind_eq_ok (m := fetchStream) h
    obtain ⟨v, hread, rfl⟩ := fetchStream_once hfetch
    have hpointer := readPointer_ok hrest
    exact ⟨(evaluated_advancePc r hread.addressed hread.regs.2).andThen hpointer.addressed hpointer.regs.2,
      hpointer.mmr0.trans hread.mmr0⟩

/-- An address whose reference aborts: the register stays stepped, and MMR0 is written by an MMU abort only. -/
theorem effectiveAddress_error {f : Operand} {n : Nat} {s t : State} {e : Exit} (h : effectiveAddress f n s = .error e t) :
    Evaluated (stepsPointer f.mode) f.reg s t ∧ (e ≠ .raise .mmuAbort → t.mmu.mmr0 = s.mmu.mmr0) ∧
    (f.mode = .autoIncDeferred → t.reg f.reg = s.reg f.reg + 2#16) ∧
    (f.mode = .autoDecDeferred → t.reg f.reg = s.reg f.reg - 2#16) := by
  obtain ⟨m, r⟩ := f
  cases m with
  | register | deferred | autoInc => cases h
  | autoDec => rw [effectiveAddress_autoDec] at h; cases h
  | autoIncDeferred =>
    have habort := readPointer_error ((effectiveAddress_autoIncDeferred_run s r n).symm.trans h)
    have hregs := habort.regs
    exact ⟨(evaluated_moved s r 2).andThen habort.addressed hregs.2, fun he => by rw [(habort.2 he).1, moved_mmr0],
      fun _ => by rw [reg_congr r hregs.1 hregs.2, moved_reg, add_ofInt_two], nofun⟩
  | autoDecDeferred =>
    have habort := readPointer_error ((effectiveAddress_autoDecDeferred_run s r n).symm.trans h)
    have hregs := habort.regs
    exact ⟨(evaluated_moved_stackChecked s r (-2) _).andThen habort.addressed hregs.2,
      fun he => by rw [(habort.2 he).1, State.movedBack, stackChecked_mmr0, moved_mmr0], nofun,
      fun _ => by rw [reg_congr r hregs.1 hregs.2, movedBack_reg]⟩
  | index =>
    obtain hfetch | ⟨w, u, _, hrest⟩ := bind_eq_error (m := fetchStream) h
    · obtain ⟨u, habort, rfl | rfl⟩ := fetchStream_error hfetch
      · exact ⟨(evaluated_refl s r).andThen habort.addressed habort.regs.2, fun he => (habort.2 he).1, nofun, nofun⟩
      · exact ⟨evaluated_advancePc r habort.addressed habort.regs.2, fun he => (habort.2 he).1, nofun, nofun⟩
    · cases hrest
  | indexDeferred =>
    obtain hfetch | ⟨w, u, hfetch, hrest⟩ := bind_eq_error (m := fetchStream) h
    · obtain ⟨u, habort, rfl | rfl⟩ := fetchStream_error hfetch
      · exact ⟨(evaluated_refl s r).andThen habort.addressed habort.regs.2, fun he => (habort.2 he).1, nofun, nofun⟩
      · exact ⟨evaluated_advancePc r habort.addressed habort.regs.2, fun he => (habort.2 he).1, nofun, nofun⟩
    · obtain ⟨v, hread, rfl⟩ := fetchStream_once hfetch
      have habort := readPointer_error hrest
      exact ⟨(evaluated_advancePc r hread.addressed hread.regs.2).andThen habort.addressed habort.regs.2,
        fun he => (habort.2 he).1.trans hread.mmr0, nofun, nofun⟩

end Sys2Proof.Machine
end

section
/-! PROOFS. Evaluating an operand field to a place, and what that leaves (40 R251, R252, R262, R268). -/

namespace Sys2Proof.Machine

section
variable {sz : Size} {f : Operand} {s t : State}

theorem place_register (sz : Size) (s : State) (h : f.mode = .register) : place sz f s = .ok (.reg f.reg) s := by
  rw [place, if_pos h]
  rfl

theorem place_memory (sz : Size) (s : State) (h : f.mode ≠ .register) : place sz f s =
    (effectiveAddress f sz.bytes >>= fun x => (pure (.mem x.1 x.2) : M Place)) s := by
  rw [place, if_neg h]

theorem place_memory_ok {p : Place} (hm : f.mode ≠ .register) (h : place sz f s = .ok p t) :
    ∃ sp a, p = .mem sp a ∧ effectiveAddress f sz.bytes s = .ok (sp, a) t := by
  rw [place_memory sz s hm] at h
  obtain ⟨⟨sp, a⟩, u, haddress, hrest⟩ := bind_eq_ok h
  cases hrest
  exact ⟨sp, a, rfl, haddress⟩

/-- Evaluating a field aborts where its address does. -/
theorem place_error {e : Exit} (h : place sz f s = .error e t) : effectiveAddress f sz.bytes s = .error e t := by
  by_cases hm : f.mode = .register
  · rw [place_register sz s hm] at h
    cases h
  · rw [place_memory sz s hm] at h
    obtain haddress | ⟨x, u, _, hrest⟩ := bind_eq_error h
    · exact haddress
    · cases hrest

/-- A place leaves what its address leaves. -/
theorem place_ok {p : Place} (h : place sz f s = .ok p t) :
    Evaluated (stepsRegister f.mode) f.reg s t ∧ t.mmu.mmr0 = s.mmu.mmr0 := by
  by_cases hm : f.mode = .register
  · rw [place_register sz s hm] at h
    cases h
    rw [hm]
    exact ⟨evaluated_refl s f.reg, rfl⟩
  · obtain ⟨sp, a, _, haddress⟩ := place_memory_ok hm h
    exact effectiveAddress_ok haddress

/-- Naming a register, and mode 1, change nothing. -/
theorem place_ok_eq {p : Place} (hm : f.mode = .register ∨ f.mode = .deferred) (h : place sz f s = .ok p t) : t = s := by
  obtain ⟨m, r⟩ := f
  obtain rfl | rfl : m = .register ∨ m = .deferred := hm
  · cases h; rfl
  · cases h; rfl

/-- `Evaluated` with every field written out: what may change is taken from the state after. -/
theorem Evaluated.eq {b : Bool} {r : Reg} (h : Evaluated b r s t) :
    ∃ n, t = { s with
      regs := { (if b then s.setReg r (t.reg r) else s).regs with pc := t.regs.pc }
      mmu := { s.mmu with mmr0 := t.mmu.mmr0, mmr1 := t.mmu.mmr1 }
      mem := s.memAfter n
      flow := { s.flow with pendYellow := t.flow.pendYellow, pendParity := t.flow.pendParity
                            prefetchFault := t.flow.prefetchFault }
      answers := s.answers.drop n
      io := { s.io with rx := t.io.rx }
      draws := t.draws } := by
  obtain ⟨⟨n, hrest⟩, hregs⟩ := h
  exact ⟨n, hrest.trans (by rw [← hregs])⟩

/-- MMR0 too is as it was, where no reference aborted. -/
theorem Evaluated.eq_of_mmr0 {b : Bool} {r : Reg} (h : Evaluated b r s t) (hmmr0 : t.mmu.mmr0 = s.mmu.mmr0) :
    ∃ n, t = { s with
      regs := { (if b then s.setReg r (t.reg r) else s).regs with pc := t.regs.pc }
      mmu := { s.mmu with mmr1 := t.mmu.mmr1 }
      mem := s.memAfter n
      flow := { s.flow with pendYellow := t.flow.pendYellow, pendParity := t.flow.pendParity
                            prefetchFault := t.flow.prefetchFault }
      answers := s.answers.drop n
      io := { s.io with rx := t.io.rx }
      draws := t.draws } := by
  obtain ⟨n, ht⟩ := h.eq
  exact ⟨n, ht.trans (by rw [hmmr0])⟩

end

/-- What an operand is (40 R251, R252). -/
theorem place_meaning (sz : Size) (f : Operand) (s : State) :
    (f.mode = .register → place sz f s = .ok (.reg f.reg) s) ∧
    (f.mode ≠ .register →
      (∀ sp a t, effectiveAddress f sz.bytes s = .ok (sp, a) t → place sz f s = .ok (.mem sp a) t) ∧
      (∀ p t, place sz f s = .ok p t → ∃ sp a, p = .mem sp a ∧ effectiveAddress f sz.bytes s = .ok (sp, a) t) ∧
      (∀ e t, effectiveAddress f sz.bytes s = .error e t → place sz f s = .error e t)) ∧
    (∀ p t, place sz f s = .ok p t → readOp sz f s = readPlace sz p .read t) ∧
    (∀ e t, place sz f s = .error e t → readOp sz f s = .error e t) := by
  refine ⟨place_register sz s, fun hm => ⟨fun sp a t h => ?_, fun p t h => place_memory_ok hm h, fun e t h => ?_⟩,
    fun p t h => run_bind_ok h, fun e t h => run_bind_error h⟩
  · exact (place_memory sz s hm).trans (run_bind_ok h)
  · exact (place_memory sz s hm).trans (run_bind_error h)

/-- Settles O22: the address of each mode is `effectiveAddress_ok` and `effectiveAddress_error`, the read after it
`readPlace_once` and `readPlace_onlyAborted`. -/
theorem operandReadFrame : Obligations.OperandReadFrame := by
  refine ⟨fun sz f s n hn => ?_, fun acc s r sp a => ?_, fun s n h => memAfter_of_undisturbed h n, fun sz f s t p h => ?_,
    fun sz f s t e h => ?_, fun sz p acc s t e h => ?_, fun sz p acc s t x hacc h => readPlace_once hacc h⟩
  · obtain rfl : n = sz.bytes := hn.trans (by cases sz <;> rfl)
    exact place_meaning sz f s
  · refine ⟨rfl, congrArg (EStateM.Result.ok · s) (regPart_byte _), fun h => ?_, fun pa u sz x t htranslate hd h => ?_⟩
    · exact ⟨h.read sp s.curMode acc, h.readByte sp s.curMode acc, h.readByte_succ sp s.curMode acc⟩
    · rw [readPlace_storage_ok htranslate hd h]
      cases sz <;> rfl
  · obtain ⟨hleft, hmmr0⟩ := place_ok h
    refine ⟨?_, fun hm => place_ok_eq hm h⟩
    simpa only [stepsRegister, decide_eq_true_eq] using hleft.eq_of_mmr0 hmmr0
  · obtain ⟨hleft, hmmr0, hinc, hdec⟩ := effectiveAddress_error (place_error h)
    refine ⟨?_, hmmr0, fun _ => hinc, fun _ => hdec⟩
    simpa only [stepsPointer, decide_eq_true_eq] using hleft.eq
  · obtain ⟨hps, hregs⟩ := readPlace_error_regs h
    exact ⟨hps, hregs, fun hacc => readPlace_onlyAborted hacc h⟩

end Sys2Proof.Machine
end

section
/-! PROOFS. Writing an operand: the register and its banks, or the bytes of its size in storage and the W bit of the page
(40 R251, R263; 10_state R20 to R23, R52; 20_memory R101, R138, R151, R152). -/

namespace Sys2Proof.Machine

/-! ## A register written -/

section
variable (s : State) (r : Reg) (v : Word)

/-- Writing a register changes the registers and, for the PC, the mark that it was written. -/
theorem setReg_eq : s.setReg r v = { s with
    regs := (s.setReg r v).regs
    flow := { s.flow with prefetchFault := s.flow.prefetchFault || decide (r = .pc) } } := by
  cases r with
  | sp => simpa [State.setReg] using setStackPtr_eq s s.curMode v
  | pc => simp [State.setReg, State.jump]
  | r0 | r1 | r2 | r3 | r4 | r5 => simp [State.setReg, State.setGprN]

/-- Of R0 to R5 in both sets only the slot of the register is written (10_state R20, R22). -/
theorem setReg_gpr_of_ne (n : Fin 12) (h : ∀ k : Fin 6, r.bits.toNat = k.val → n ≠ s.gprSlot k) :
    (s.setReg r v).regs.gpr.get n = s.regs.gpr.get n := by
  have hgpr (k : Fin 6) (hk : r.bits.toNat = k.val) : (s.setGprN k v).regs.gpr.get n = s.regs.gpr.get n :=
    (get_set ..).trans (if_neg (h k hk))
  cases r with
  | r0 => exact hgpr 0 rfl
  | r1 => exact hgpr 1 rfl
  | r2 => exact hgpr 2 rfl
  | r3 => exact hgpr 3 rfl
  | r4 => exact hgpr 4 rfl
  | r5 => exact hgpr 5 rfl
  | sp => exact congrArg (fun gpr => gpr.get n) (s.setStackPtr_gpr s.curMode v)
  | pc => rfl

/-- Writing the stack pointer of a mode leaves those of the others (10_state R23). -/
theorem setStackPtr_others (m : BitVec 2) :
    (m ≠ kernel → (s.setStackPtr m v).regs.ksp = s.regs.ksp) ∧
    (m ≠ supervisor → (s.setStackPtr m v).regs.ssp = s.regs.ssp) ∧
    (m = kernel ∨ m = supervisor → (s.setStackPtr m v).regs.usp = s.regs.usp) := by
  unfold State.setStackPtr
  by_cases hk : m = kernel
  · rw [if_pos hk]
    exact ⟨fun h => absurd hk h, fun _ => rfl, fun _ => rfl⟩
  · rw [if_neg hk]
    by_cases hs : m = supervisor
    · rw [if_pos hs]
      exact ⟨fun _ => rfl, fun h => absurd hs h, fun _ => rfl⟩
    · rw [if_neg hs]
      exact ⟨fun _ => rfl, fun _ => rfl, fun h => (h.elim hk hs).elim⟩

/-- Writing a register leaves the stack pointers but that of the mode whose SP it is. -/
theorem setReg_stackPtrs :
    (r ≠ .sp ∨ s.curMode ≠ kernel → (s.setReg r v).regs.ksp = s.regs.ksp) ∧
    (r ≠ .sp ∨ s.curMode ≠ supervisor → (s.setReg r v).regs.ssp = s.regs.ssp) ∧
    (r ≠ .sp ∨ s.curMode = kernel ∨ s.curMode = supervisor → (s.setReg r v).regs.usp = s.regs.usp) := by
  cases r with
  | sp =>
    obtain ⟨hksp, hssp, husp⟩ := setStackPtr_others s v s.curMode
    exact ⟨fun h => hksp (h.resolve_left (not_not_intro rfl)), fun h => hssp (h.resolve_left (not_not_intro rfl)),
      fun h => husp (h.resolve_left (not_not_intro rfl))⟩
  | pc | r0 | r1 | r2 | r3 | r4 | r5 => exact ⟨fun _ => rfl, fun _ => rfl, fun _ => rfl⟩

/-- A byte written to a register leaves its upper byte (40 R251). -/
theorem regMerge_byte (old : Word) : regMerge .byte old v = (old &&& 0o177400#16) ||| (v &&& 0o377#16) := by
  have hold : old.extractLsb' 8 8 ++ old.extractLsb' 0 8 = old := by
    rw [BitVec.extractLsb'_append_extractLsb'_eq_extractLsb' (by rfl), BitVec.extractLsb'_eq_self]
  have hmasks := append_lowByte_eq_masks (old.extractLsb' 8 8) (old.extractLsb' 0 8) v
  rwa [hold] at hmasks

end

/-! ## A translation that succeeds -/

/-- It is 16-bit mapping, or a page of a legal mode grants it; a write then sets W of the page (20_memory R133 to R138). -/
theorem translate_ok_cases {s u : State} {sp : Space} {m : BitVec 2} {va : Word} {acc : Access} {pa : PAddr}
    (h : translate sp m va acc s = .ok pa u) :
    (s.mmu.mmr0.getLsbD 0 = false ∧ pa = map16 va ∧ u = s) ∨
    ∃ i, s.mmu.mmr0.getLsbD 0 = true ∧ m ≠ 2#2 ∧ i = pageSlot m (usedSpace s.mmu.mmr3 m sp) va ∧
      (pageNonResident (s.mmu.pdr.get i) || pageLengthError (s.mmu.pdr.get i) va ||
        pageReadOnly (s.mmu.pdr.get i) acc) = false ∧
      pa = relocate s.mmu.mmr3 (s.mmu.par.get i) va ∧
      u = if acc = .write then
        { s with mmu := { s.mmu with pdr := s.mmu.pdr.set i.val (s.mmu.pdr.get i ||| pdrW) i.isLt } } else s := by
  cases hon : s.mmu.mmr0.getLsbD 0 with
  | false =>
    rw [translate_off sp m va acc hon] at h
    cases h
    exact .inl ⟨rfl, rfl, rfl⟩
  | true =>
    have hm : m ≠ 2#2 := by
      rintro rfl
      obtain ⟨length, space, _, habort⟩ := translate_illegalMode (sp := sp) (va := va) (acc := acc) hon
      rw [habort] at h
      cases h
    cases hchecks : (pageNonResident (s.mmu.pdr.get (pageSlot m (usedSpace s.mmu.mmr3 m sp) va)) ||
        pageLengthError (s.mmu.pdr.get (pageSlot m (usedSpace s.mmu.mmr3 m sp) va)) va ||
        pageReadOnly (s.mmu.pdr.get (pageSlot m (usedSpace s.mmu.mmr3 m sp) va)) acc) with
    | true =>
      rw [translate_denied hon hm rfl hchecks] at h
      cases h
    | false =>
      rw [translate_granted hon hm rfl hchecks] at h
      cases h
      exact .inr ⟨_, rfl, hm, rfl, hchecks, rfl, rfl⟩

/-- An address that a write is translated to depends only on the mode and the memory management unit. -/
theorem target_congr {s t : State} {p : Place} {pa : PAddr} (hmode : t.curMode = s.curMode) (hmmu : t.mmu = s.mmu)
    (h : p.target s = some pa) : p.target t = some pa := by
  cases p with
  | reg r => cases h
  | mem sp a =>
    unfold Place.target at h ⊢
    dsimp only at h ⊢
    cases htranslate : translate sp s.curMode a .write s with
    | error e u => rw [htranslate] at h; cases h
    | ok pa' u =>
      rw [htranslate] at h
      cases h
      obtain ⟨hoff, rfl, -⟩ | ⟨i, hon, hm, hi, hchecks, rfl, -⟩ := translate_ok_cases htranslate
      · rw [translate_off sp _ a .write (hmmu ▸ hoff)]
      · rw [← hmmu] at hon hi hchecks ⊢
        rw [← hmode] at hm hi
        rw [translate_granted hon hm hi hchecks]

/-! ## A store -/

section
variable {s t : State} {sz : Size} {sp : Space} {va v : Word} {pa : PAddr}

/-- The target of a place in memory is where its write is translated. -/
theorem target_mem (h : (Place.mem sp va).target s = some pa) : ∃ u, translate sp s.curMode va .write s = .ok pa u := by
  unfold Place.target at h
  dsimp only at h
  cases htranslate : translate sp s.curMode va .write s with
  | error e u => rw [htranslate] at h; cases h
  | ok pa' u => rw [htranslate] at h; cases h; exact ⟨u, rfl⟩

/-- A write to storage that succeeds: translated, then stored over what other masters stored before it. -/
theorem writePlace_storage_ok {b : Bool} (htarget : (Place.mem sp va).target s = some pa) (hd : s.deviceAt pa = .storage)
    (h : writePlace sz (.mem sp va) v s = .ok b t) :
    b = false ∧ ∃ u, translate sp s.curMode va .write s = .ok pa u ∧
      t = { s with mmu := u.mmu, mem := s.answered.mem.store sz pa v, answers := s.answers.tail } := by
  obtain ⟨u, htranslate⟩ := target_mem htarget
  obtain ⟨pa', u', htranslate', hwrite⟩ := memWrite_ok (show memWrite sp s.curMode sz va v s = .ok b t from h)
  obtain ⟨rfl, rfl⟩ : pa = pa' ∧ u = u' := by
    rw [htranslate] at htranslate'
    cases htranslate'
    exact ⟨rfl, rfl⟩
  have hu := translate_ok_mmu htranslate
  have hd' : u.deviceAt pa = .storage := by rw [hu]; exact hd
  obtain ⟨hb, ht⟩ := physWrite_storage_ok hd' hwrite
  refine ⟨hb, u, htranslate, ?_⟩
  rw [hu, answered_mem_withMmu] at ht
  exact ht

/-- An aligned write to storage whose cycle the platform does not abort succeeds. -/
theorem writePlace_storage (v : Word) (htarget : (Place.mem sp va).target s = some pa) (hd : s.deviceAt pa = .storage)
    (habort : (s.busAnswer pa).abort = false) (haligned : sz = .byte ∨ va.getLsbD 0 = false) :
    ∃ t, writePlace sz (.mem sp va) v s = .ok false t := by
  obtain ⟨u, htranslate⟩ := target_mem htarget
  have hu := translate_ok_mmu htranslate
  have hd' : u.deviceAt pa = .storage := by rw [hu]; exact hd
  have habort' : (u.busAnswer pa).abort = false := by
    rw [busAnswer_congr (s := s) pa (by rw [hu]) (by rw [hu])]
    exact habort
  exact ⟨_, (memWrite_of_translate v haligned htranslate).trans (physWrite_storage hd' habort')⟩

/-- The operand's bytes are stored, over what other masters stored before (20_memory R101, R152). -/
theorem load_store {m : Memory} (h : m.wf = true) :
    (sz = .word → (m.store sz pa v).readWord (wordAddr pa).toNat = v) ∧
    (sz = .byte → (m.store sz pa v).read pa.toNat = v.extractLsb' 0 8) := by
  refine ⟨?_, ?_⟩
  · rintro rfl
    exact Memory.readWord_writeWord _ v h
  · rintro rfl
    exact Memory.read_write_same _ _ h

end

/-- Settles O23: a register is `State.setReg`; a place in storage is translated, which may set W, and stored. -/
theorem operandWriteFrame : Obligations.OperandWriteFrame := by
  intro sz s t v b hwf
  refine ⟨fun r => ⟨_, rfl, ?_, fun r' hr => ?_, fun n => setReg_gpr_of_ne s r _ n, ?_⟩,
    fun sp va pa htarget hd h => ?_⟩
  · rw [State.reg_setReg, if_pos rfl]
    cases sz with
    | word => rfl
    | byte => exact regMerge_byte v (s.reg r)
  · rw [State.reg_setReg, if_neg (Ne.symm hr)]
  · obtain ⟨hksp, hssp, husp⟩ := setReg_stackPtrs s r (regMerge sz (s.reg r) v)
    exact ⟨hksp, hssp, husp, setReg_eq s r _⟩
  · obtain ⟨rfl, u, htranslate, rfl⟩ := writePlace_storage_ok htarget hd h
    have hstored := load_store (sz := sz) (pa := pa) (v := v) (m := s.answered.mem) (wf_dmaMem _ hwf)
    refine ⟨rfl, rfl, fun hoff => ?_, fun hon i hi => ?_, fun a => read_store_of_not_mem, hstored⟩
    · obtain ⟨-, -, rfl⟩ | ⟨i, hon, -⟩ := translate_ok_cases htranslate
      · rfl
      · rw [hoff] at hon; cases hon
    · obtain ⟨hoff, -⟩ | ⟨j, -, -, hj, -, -, rfl⟩ := translate_ok_cases htranslate
      · rw [hon] at hoff; cases hoff
      · rw [hi, hj]; rfl

end Sys2Proof.Machine
end

section
/-! PROOFS. Running the one-operand instructions that change their operand: the bodies, when each piece goes on
(40 R264; 41 R301 to R334). -/

namespace Sys2Proof.Machine

section
variable {s s1 s2 t : State} {sz : Size} {dst : Operand} {p : Place} {x : Word} {b : Bool}

/-- Read, compute, write, set the codes. -/
theorem modifyOperand_run (f : Unary) (hplace : place sz dst s = .ok p s1) (hread : readPlace sz p .modify s1 = .ok x s2)
    (hwrite : writePlace sz p (unaryAt sz f s2.cc x).1 s2 = .ok b t) :
    modifyOperand sz f dst s = .ok () (t.finish b (unaryAt sz f s2.cc x).2) :=
  (run_bind_ok hplace).trans ((run_bind_ok hread).trans (run_bind_ok hwrite))

theorem swapBytes_run (hplace : place .word dst s = .ok p s1) (hread : readPlace .word p .modify s1 = .ok x s2)
    (hwrite : writePlace .word p (swabResult x).1 s2 = .ok b t) : swapBytes dst s = .ok () (t.finish b (swabResult x).2) :=
  (run_bind_ok hplace).trans ((run_bind_ok hread).trans (run_bind_ok hwrite))

/-- Write without reading. -/
theorem storeOperand_run (f : Cc → Word × Cc) (hplace : place sz dst s = .ok p s1)
    (hwrite : writePlace sz p (f s1.cc).1 s1 = .ok b t) : storeOperand sz f dst s = .ok () (t.finish b (f s1.cc).2) :=
  (run_bind_ok hplace).trans (run_bind_ok hwrite)

theorem moveFromPs_run (hplace : place .byte dst s = .ok p s1)
    (hwrite : writeByteExtended p (s1.ps.extractLsb' 0 8) s1 = .ok b t) :
    moveFromPs dst s = .ok () (t.finish b (Cc.of (s1.ps.extractLsb' 0 8) false s1.cc.c)) :=
  (run_bind_ok hplace).trans (run_bind_ok hwrite)

/-- The locked pair, on an operand in memory. -/
theorem testAndSet_run (hm : dst.mode ≠ .register) (hplace : place .word dst s = .ok p s1)
    (hread : readPlace .word p .modify s1 = .ok x s2)
    (hwrite : lockedCycle (writePlace .word p (x ||| 1#16)) (s2.setReg .r0 x) = .ok b t) :
    testAndSet dst s = .ok () (t.finish b (Cc.of x false (x.getLsbD 0))) := by
  unfold testAndSet
  rw [if_neg hm]
  exact (run_bind_ok hplace).trans ((run_bind_ok hread).trans (run_bind_ok hwrite))

theorem writeLocked_run (hm : dst.mode ≠ .register) (hplace : place .word dst s = .ok p s1)
    (hread : readPlace .word p .modify s1 = .ok x s2)
    (hwrite : lockedCycle (writePlace .word p (s2.reg .r0)) s2 = .ok b t) :
    writeLocked dst s = .ok () (t.finish b (Cc.of (s2.reg .r0) false s2.cc.c)) := by
  unfold writeLocked
  rw [if_neg hm]
  exact (run_bind_ok hplace).trans ((run_bind_ok hread).trans (run_bind_ok hwrite))

/-- With no other master storing, the lock makes no difference. -/
theorem lockedCycle_of_undisturbed {α : Type} {m : M α} {v : α} (h : s.Undisturbed) (hm : m s = .ok v t) :
    lockedCycle m s = .ok v t := by
  have hheld : (s.answers.headD .plain).dma = [] := by
    cases ha : s.answers with
    | nil => rfl
    | cons y ys => exact h y (ha ▸ List.mem_cons_self)
  unfold lockedCycle
  rw [holdMasters_of_undisturbed h, hm, hheld]
  rfl

end

/-- The word instructions of the table are SWAB and those that modify their operand. -/
theorem exec_unaryWordTable (dst : Operand) (x : Word) (c : Bool) : ∀ row ∈ unaryWordTable dst x c,
    (∃ f : Unary, ∀ s, exec row.1 s = complete (modifyOperand .word f dst) s) ∨
      ∀ s, exec row.1 s = complete (swapBytes dst) s := by
  unfold unaryWordTable
  simp only [List.forall_mem_cons]
  exact ⟨.inl ⟨aluCom, fun _ => rfl⟩, .inl ⟨aluInc, fun _ => rfl⟩, .inl ⟨aluDec, fun _ => rfl⟩, .inl ⟨aluNeg, fun _ => rfl⟩,
    .inl ⟨aluAsr, fun _ => rfl⟩, .inl ⟨aluAsl, fun _ => rfl⟩, .inl ⟨aluRor, fun _ => rfl⟩, .inl ⟨aluRol, fun _ => rfl⟩,
    .inr fun _ => rfl, .inl ⟨aluAdc, fun _ => rfl⟩, .inl ⟨aluSbc, fun _ => rfl⟩, fun _ h => absurd h List.not_mem_nil⟩

/-- The byte instructions of the table modify their operand. -/
theorem exec_unaryByteTable (dst : Operand) (x : Byte) (c : Bool) : ∀ row ∈ unaryByteTable dst x c,
    ∃ f : Unary, ∀ s, exec row.1 s = complete (modifyOperand .byte f dst) s := by
  unfold unaryByteTable
  simp only [List.forall_mem_cons]
  exact ⟨⟨aluCom, fun _ => rfl⟩, ⟨aluInc, fun _ => rfl⟩, ⟨aluDec, fun _ => rfl⟩, ⟨aluNeg, fun _ => rfl⟩,
    ⟨aluAsr, fun _ => rfl⟩, ⟨aluAsl, fun _ => rfl⟩, ⟨aluRor, fun _ => rfl⟩, ⟨aluRol, fun _ => rfl⟩,
    ⟨aluAdc, fun _ => rfl⟩, ⟨aluSbc, fun _ => rfl⟩, fun _ h => absurd h List.not_mem_nil⟩

end Sys2Proof.Machine
end

section
/-! PROOFS. The frame of a one-operand instruction that stores to memory (40 R264; 41 R301 to R334; 20_memory R101, R151). -/

namespace Sys2Proof.Machine

/-! ## Before the store -/

/-- Between the two states only these registers, MMR1, requests and counts changed: storage, the special registers and the PS did
not, and no other bus master stores. -/
structure Unstored (changed : Reg → Prop) (s u : State) : Prop where
  mem : u.mem = s.mem
  undisturbed : u.Undisturbed
  regs : ∀ r, ¬changed r → u.reg r = s.reg r
  ps : u.ps = s.ps
  sys : u.sys = s.sys
  fpu : u.fpu = s.fpu
  mmu : u.mmu = { s.mmu with mmr1 := u.mmu.mmr1 }
  phase : u.phase = s.phase
  plat : u.plat = s.plat

/-- The registers that an operand's address may change. -/
def AddressChanges (f : Operand) (r : Reg) : Prop := r = .pc ∨ StepsReg f r

section
variable {s s1 s2 u t : State} {sz : Size} {dst : Operand} {p : Place} {x : Word} {changed : Reg → Prop}

theorem Unstored.mono {changed' : Reg → Prop} (h : Unstored changed s u) (hc : ∀ r, changed r → changed' r) :
    Unstored changed' s u :=
  { h with regs := fun r hr => h.regs r fun hch => hr (hc r hch) }

theorem Unstored.setReg (h : Unstored changed s u) (v : Word) :
    Unstored (fun r => changed r ∨ r = .r0) s (u.setReg .r0 v) where
  mem := h.mem
  undisturbed := h.undisturbed
  regs := fun r hr => by
    rw [State.reg_setReg, if_neg fun h0 => hr (.inr h0.symm)]
    exact h.regs r fun hc => hr (.inl hc)
  ps := h.ps
  sys := h.sys
  fpu := h.fpu
  mmu := h.mmu
  phase := h.phase
  plat := h.plat

/-- A register that the operand's address does not change. -/
theorem Evaluated.reg_of_not_addressChanges (h : Evaluated (stepsRegister dst.mode) dst.reg s t) {r : Reg}
    (hr : ¬AddressChanges dst r) : t.reg r = s.reg r := by
  have hpc : r ≠ .pc := fun h => hr (.inl h)
  have hsteps : ¬(dst.reg = r ∧ stepsRegister dst.mode = true) := fun h =>
    hr (.inr ⟨h.1, by simpa only [stepsRegister, decide_eq_true_eq] using h.2⟩)
  have hps : t.ps = s.ps := h.rest.ps
  obtain ⟨-, hregs⟩ := h
  cases hb : stepsRegister dst.mode with
  | false =>
    rw [hb] at hregs
    rw [← setPc_reg_of_ne s r t.regs.pc hpc]
    exact reg_congr r hps hregs
  | true =>
    rw [hb] at hregs
    rw [reg_congr (s := (s.setReg dst.reg (t.reg dst.reg)).setPc t.regs.pc) r (by simpa using hps) hregs,
      setPc_reg_of_ne _ r _ hpc, State.reg_setReg, if_neg fun heq => hsteps ⟨heq, hb⟩]

theorem unstored_place (hs : s.Undisturbed) (h : place sz dst s = .ok p t) : Unstored (AddressChanges dst) s t := by
  obtain ⟨hleft, hmmr0⟩ := place_ok h
  obtain ⟨n, ht⟩ := hleft.eq_of_mmr0 hmmr0
  refine ⟨?_, ?_, fun r hr => hleft.reg_of_not_addressChanges hr, ?_, ?_, ?_, ?_, ?_, ?_⟩ <;> rw [ht]
  · exact memAfter_of_undisturbed hs n
  · exact fun y hy => hs y (List.mem_of_mem_drop hy)

theorem Unstored.read {acc : Access} (h : Unstored changed s u) (hacc : acc ≠ .write)
    (hread : readPlace sz p acc u = .ok x t) : Unstored changed s t := by
  have honce := readPlace_once hacc hread
  obtain ⟨hps, hregs⟩ := honce.regs
  have hreg (r : Reg) : t.reg r = u.reg r := reg_congr r hps hregs
  obtain ⟨n, -, ht⟩ := honce
  refine ⟨?_, ?_, fun r hr => (hreg r).trans (h.regs r hr), hps.trans h.ps, ?_, ?_, ?_, ?_, ?_⟩ <;> rw [ht]
  · exact (memAfter_of_undisturbed h.undisturbed n).trans h.mem
  · exact fun y hy => h.undisturbed y (List.mem_of_mem_drop hy)
  · exact h.sys
  · exact h.fpu
  · exact h.mmu
  · exact h.phase
  · exact h.plat

end

/-! ## The store and the codes -/

/-- The store of some value at the place, after which the codes are set, leads from one state to the other. -/
def StoresCodes (sz : Size) (p : Place) (u t : State) : Prop :=
  ∃ v k w, writePlace sz p v u = .ok false w ∧ t = w.withCc k

/-- Setting the codes keeps every register and every other PS bit (10_state R31). -/
theorem reg_withCc (s : State) (k : Cc) (r : Reg) : (s.withCc k).reg r = s.reg r := by
  have hbank : (s.withCc k).ps.getLsbD 11 = s.ps.getLsbD 11 := by
    rw [State.withCc_ps, getLsbD_mergeBits, if_neg (by decide)]
  have hgpr (n : Fin 6) : (s.withCc k).gprN n = s.gprN n := by
    unfold State.gprN State.gprSlot
    rw [hbank, State.withCc_regs]
  cases r with
  | sp => simp only [State.reg, State.curMode_withCc]; rfl
  | pc => rfl
  | r0 | r1 | r2 | r3 | r4 | r5 => exact hgpr _

theorem withCc_ps_unmasked (s : State) (k : Cc) : (s.withCc k).ps &&& 0o177760#16 = s.ps &&& 0o177760#16 := by
  have hmask : ∀ i < 16, (0o177760#16 : Word).getLsbD i = !(0o17#16 : Word).getLsbD i := by decide
  refine BitVec.eq_of_getLsbD_eq fun i hi => ?_
  rw [BitVec.getLsbD_and, BitVec.getLsbD_and, hmask i hi, State.withCc_ps, getLsbD_mergeBits]
  cases (0o17#16 : Word).getLsbD i with
  | true => simp
  | false => rfl

/-- A translation keeps all of the memory management unit but the W bits. -/
theorem translate_ok_pdr {s u : State} {sp : Space} {m : BitVec 2} {va : Word} {acc : Access} {pa : PAddr}
    (h : translate sp m va acc s = .ok pa u) : u.mmu = { s.mmu with pdr := u.mmu.pdr } ∧
      ∀ i, u.mmu.pdr.get i = s.mmu.pdr.get i ∨ u.mmu.pdr.get i = s.mmu.pdr.get i ||| 0o100#16 := by
  obtain rfl | ⟨-, j, rfl⟩ := translate_ok h
  · exact ⟨rfl, fun _ => .inl rfl⟩
  · refine ⟨rfl, fun i => ?_⟩
    dsimp only
    rw [get_set]
    by_cases hij : i = j
    · rw [if_pos hij, hij]
      exact .inr rfl
    · rw [if_neg hij]
      exact .inl rfl

/-- From before the operand's address was evaluated to after the codes are set: the operand's bytes, the registers of the address
and the W bit changed. -/
theorem StoresCodes.frame {changed : Reg → Prop} {s u t : State} {sz : Size} {p : Place} {pa : PAddr}
    (h : Unstored changed s u) (htarget : p.target u = some pa) (hd : u.deviceAt pa = .storage) (hstore : StoresCodes sz p u t) :
    (∀ a, a ∉ storedBytes sz pa → t.mem.read a = s.mem.read a) ∧
    (∀ r, ¬changed r → t.reg r = s.reg r) ∧ SpecialsKept s t := by
  obtain ⟨v, k, w, hwrite, rfl⟩ := hstore
  cases p with
  | reg r => cases htarget
  | mem sp va =>
    obtain ⟨-, u', htranslate, rfl⟩ := writePlace_storage_ok htarget hd hwrite
    obtain ⟨hmmu, hpdr⟩ := translate_ok_pdr htranslate
    have hmem : u.answered.mem = s.mem := by
      rw [answered_memAfter, memAfter_of_undisturbed h.undisturbed, h.mem]
    have hupdr : u.mmu.pdr = s.mmu.pdr := by rw [h.mmu]
    refine ⟨fun a ha => ?_, fun r hr => ?_, h.sys, h.fpu, ?_, ?_, ?_, h.phase⟩
    · rw [← hmem]
      exact read_store_of_not_mem ha
    · rw [reg_withCc]
      exact (reg_congr (s := u) r rfl rfl).trans (h.regs r hr)
    · show u'.mmu = { s.mmu with mmr1 := u'.mmu.mmr1, pdr := u'.mmu.pdr }
      rw [hmmu, h.mmu]
    · rw [← hupdr]
      exact hpdr
    · rw [withCc_ps_unmasked]
      exact congrArg (· &&& 0o177760#16) h.ps

/-! ## The instructions -/

/-- Every write of an operand at the place succeeds. -/
def Storable (sz : Size) (p : Place) (u : State) : Prop := ∀ v, ∃ w, writePlace sz p v u = .ok false w

/-- The instruction comes to one store at the place, made from the state `u`, and its codes. -/
def ExecStores (i : Instr) (s : State) (sz : Size) (p : Place) (u : State) : Prop :=
  ∃ t, StoresCodes sz p u t ∧ exec i s = .next t

section
variable {s s1 s2 : State} {sz : Size} {dst : Operand} {p : Place} {x : Word} {i : Instr}

theorem execStores_modify {f : Unary} (hexec : ∀ s, exec i s = complete (modifyOperand sz f dst) s)
    (hplace : place sz dst s = .ok p s1) (hread : readPlace sz p .modify s1 = .ok x s2) (h : Storable sz p s2) :
    ExecStores i s sz p s2 := by
  obtain ⟨w, hw⟩ := h (unaryAt sz f s2.cc x).1
  exact ⟨_, ⟨_, _, w, hw, rfl⟩, (hexec s).trans (complete_ok (modifyOperand_run f hplace hread hw))⟩

theorem execStores_swab (hexec : ∀ s, exec i s = complete (swapBytes dst) s) (hplace : place .word dst s = .ok p s1)
    (hread : readPlace .word p .modify s1 = .ok x s2) (h : Storable .word p s2) : ExecStores i s .word p s2 := by
  obtain ⟨w, hw⟩ := h (swabResult x).1
  exact ⟨_, ⟨_, _, w, hw, rfl⟩, (hexec s).trans (complete_ok (swapBytes_run hplace hread hw))⟩

theorem execStores_store {f : Cc → Word × Cc} (hexec : ∀ s, exec i s = complete (storeOperand sz f dst) s)
    (hplace : place sz dst s = .ok p s1) (h : Storable sz p s1) : ExecStores i s sz p s1 := by
  obtain ⟨w, hw⟩ := h (f s1.cc).1
  exact ⟨_, ⟨_, _, w, hw, rfl⟩, (hexec s).trans (complete_ok (storeOperand_run f hplace hw))⟩

theorem execStores_mfps {sp : Space} {va : Word} (hplace : place .byte dst s = .ok (.mem sp va) s1)
    (h : Storable .byte (.mem sp va) s1) : ExecStores (.mfps dst) s .byte (.mem sp va) s1 := by
  obtain ⟨w, hw⟩ := h ((s1.ps.extractLsb' 0 8).setWidth 16)
  exact ⟨_, ⟨_, _, w, hw, rfl⟩, complete_ok (moveFromPs_run hplace hw)⟩

theorem execStores_tstset (hm : dst.mode ≠ .register) (hquiet : s2.Undisturbed) (hplace : place .word dst s = .ok p s1)
    (hread : readPlace .word p .modify s1 = .ok x s2) (h : Storable .word p (s2.setReg .r0 x)) :
    ExecStores (.tstset dst) s .word p (s2.setReg .r0 x) := by
  obtain ⟨w, hw⟩ := h (x ||| 1#16)
  exact ⟨_, ⟨_, _, w, hw, rfl⟩, complete_ok (testAndSet_run hm hplace hread (lockedCycle_of_undisturbed hquiet hw))⟩

theorem execStores_wrtlck (hm : dst.mode ≠ .register) (hquiet : s2.Undisturbed) (hplace : place .word dst s = .ok p s1)
    (hread : readPlace .word p .modify s1 = .ok x s2) (h : Storable .word p s2) : ExecStores (.wrtlck dst) s .word p s2 := by
  obtain ⟨w, hw⟩ := h (s2.reg .r0)
  exact ⟨_, ⟨_, _, w, hw, rfl⟩, complete_ok (writeLocked_run hm hplace hread (lockedCycle_of_undisturbed hquiet hw))⟩

/-- The word instructions store after the address, after the read, or, TSTSET, after R0 is loaded too. -/
theorem execStores_word {c : Bool} (hm : dst.mode ≠ .register) (hquiet : s2.Undisturbed)
    (hplace : place .word dst s = .ok p s1) (hread : readPlace .word p .modify s1 = .ok x s2)
    (h1 : Storable .word p s1) (h2 : Storable .word p s2) (h3 : Storable .word p (s2.setReg .r0 x))
    (hi : i ∈ [.clr dst, .sxt dst, .tstset dst, .wrtlck dst] ++ (unaryWordTable dst x c).map (·.1)) :
    ExecStores i s .word p s1 ∨ ExecStores i s .word p s2 ∨
      i = .tstset dst ∧ ExecStores i s .word p (s2.setReg .r0 x) := by
  obtain hi | hi := List.mem_append.1 hi
  · simp only [List.mem_cons, List.not_mem_nil, or_false] at hi
    obtain rfl | rfl | rfl | rfl := hi
    · exact .inl (execStores_store (fun _ => rfl) hplace h1)
    · exact .inl (execStores_store (fun _ => rfl) hplace h1)
    · exact .inr (.inr ⟨rfl, execStores_tstset hm hquiet hplace hread h3⟩)
    · exact .inr (.inl (execStores_wrtlck hm hquiet hplace hread h2))
  · obtain ⟨row, hrow, rfl⟩ := List.mem_map.1 hi
    obtain ⟨f, hexec⟩ | hexec := exec_unaryWordTable dst x c row hrow
    · exact .inr (.inl (execStores_modify hexec hplace hread h2))
    · exact .inr (.inl (execStores_swab hexec hplace hread h2))

/-- The byte instructions store after the address or after the read. -/
theorem execStores_byte {sp : Space} {va : Word} {y : Byte} {c : Bool} (hplace : place .byte dst s = .ok (.mem sp va) s1)
    (hread : readPlace .byte (.mem sp va) .modify s1 = .ok x s2) (h1 : Storable .byte (.mem sp va) s1)
    (h2 : Storable .byte (.mem sp va) s2)
    (hi : i ∈ [.clrb dst, .mfps dst] ++ (unaryByteTable dst y c).map (·.1)) :
    ExecStores i s .byte (.mem sp va) s1 ∨ ExecStores i s .byte (.mem sp va) s2 := by
  obtain hi | hi := List.mem_append.1 hi
  · simp only [List.mem_cons, List.not_mem_nil, or_false] at hi
    obtain rfl | rfl := hi
    · exact .inl (execStores_store (fun _ => rfl) hplace h1)
    · exact .inl (execStores_mfps hplace h1)
  · obtain ⟨row, hrow, rfl⟩ := List.mem_map.1 hi
    obtain ⟨f, hexec⟩ := exec_unaryByteTable dst y c row hrow
    exact .inr (execStores_modify hexec hplace hread h2)

end

/-! ## Where the store can be made -/

/-- The place is in storage at this address, and the platform does not abort the cycle there. -/
structure StorageAt (p : Place) (pa : PAddr) (u : State) : Prop where
  target : p.target u = some pa
  device : u.deviceAt pa = .storage
  answers : (u.busAnswer pa).abort = false

section
variable {s u t : State} {sz : Size} {sp : Space} {va x : Word} {pa : PAddr}

/-- A word that could be read is at an even address. -/
theorem aligned_of_readPlace_ok {acc : Access} (h : readPlace sz (.mem sp va) acc s = .ok x t) :
    sz = .byte ∨ va.getLsbD 0 = false := by
  cases sz with
  | byte => exact .inl rfl
  | word =>
    cases hodd : va.getLsbD 0 with
    | false => exact .inr rfl
    | true =>
      have habort : memRead sp s.curMode .word va acc s = .error (.raise .addressError) s :=
        run_bind_error (checkAligned_odd s hodd)
      cases habort.symm.trans h

theorem StorageAt.storable (h : StorageAt (.mem sp va) pa u) (haligned : sz = .byte ∨ va.getLsbD 0 = false) :
    Storable sz (.mem sp va) u := fun v => writePlace_storage v h.target h.device h.answers haligned

/-- Loading R0 does not change where the operand is. -/
theorem StorageAt.setReg {p : Place} (h : StorageAt p pa u) (v : Word) : StorageAt p pa (u.setReg .r0 v) :=
  ⟨target_congr (s := u) (t := u.setReg .r0 v) rfl rfl h.target, h.device, h.answers⟩

/-- Nor does reading it, so it was in storage there before the read. -/
theorem StorageAt.before_read {p : Place} {acc : Access} (hacc : acc ≠ .write) (hread : readPlace sz p acc u = .ok x t)
    (h : StorageAt p pa t) (hanswers : (u.busAnswer pa).abort = false) : StorageAt p pa u := by
  obtain ⟨n, -, ht⟩ := readPlace_once hacc hread
  have hps : t.ps = u.ps := by rw [ht]
  have hmmu : t.mmu = u.mmu := by rw [ht]
  have hplat : t.plat = u.plat := by rw [ht]
  refine ⟨target_congr (by rw [State.curMode, State.curMode, hps]) hmmu.symm h.target, ?_, hanswers⟩
  have hdevice := h.device
  unfold State.deviceAt at hdevice ⊢
  rwa [hplat] at hdevice

end

/-- The frame of the instruction is that of its store. -/
theorem ExecStores.frame {changed : Reg → Prop} {s u t : State} {sz : Size} {p : Place} {pa : PAddr} {i : Instr}
    (h : ExecStores i s sz p u) (hu : Unstored changed s u) (hat : StorageAt p pa u) (hexec : exec i s = .next t) :
    (∀ a, a ∉ storedBytes sz pa → t.mem.read a = s.mem.read a) ∧
    (∀ r, ¬changed r → t.reg r = s.reg r) ∧ SpecialsKept s t := by
  obtain ⟨t', hcodes, hexec'⟩ := h
  obtain rfl : t' = t := by
    rw [hexec] at hexec'
    cases hexec'
    rfl
  exact hcodes.frame hu hat.target hat.device

/-- The registers that a one-operand instruction may change: the PC, the one its mode steps, and R0, of TSTSET. -/
def UnaryChanges (i : Instr) (dst : Operand) (r : Reg) : Prop := AddressChanges dst r ∨ (i = .tstset dst ∧ r = .r0)

/-- Settles O26: the instruction is one store, from a state that differs from the first one only as `Unstored` says. -/
theorem unaryMemoryFrame : Obligations.UnaryMemoryFrame := by
  intro dst s s1 s2 t p x pa sz i _ hi hplace hread htarget hd habort1 habort2 hquiet hexec
  suffices hstores : ∃ u, Unstored (UnaryChanges i dst) s u ∧ StorageAt p pa u ∧ ExecStores i s sz p u by
    obtain ⟨u, hu, hat, hstores⟩ := hstores
    obtain ⟨hbytes, hregs, hspecials⟩ := hstores.frame hu hat hexec
    refine ⟨hbytes, fun r hpc hstep hr0 => hregs r fun hr => ?_, hspecials⟩
    exact hr.elim (fun h => h.elim hpc hstep) hr0
  cases p with
  | reg r => cases htarget
  | mem sp va =>
    have hm : dst.mode ≠ .register := fun hm => by
      rw [place_register sz s hm] at hplace
      cases hplace
    have hacc : Access.modify ≠ .write := by decide
    have hs1 : Unstored (AddressChanges dst) s s1 := unstored_place hquiet hplace
    have hs2 : Unstored (AddressChanges dst) s s2 := hs1.read hacc hread
    have hat2 : StorageAt (.mem sp va) pa s2 := ⟨htarget, hd, habort2⟩
    have hat1 : StorageAt (.mem sp va) pa s1 := hat2.before_read hacc hread habort1
    have haligned := aligned_of_readPlace_ok hread
    have hst1 : Storable sz (.mem sp va) s1 := hat1.storable haligned
    have hst2 : Storable sz (.mem sp va) s2 := hat2.storable haligned
    obtain ⟨rfl, hi⟩ | ⟨rfl, hi⟩ := hi
    · obtain h | h | ⟨htstset, h⟩ := execStores_word hm hs2.undisturbed hplace hread hst1 hst2
        ((hat2.setReg x).storable haligned) hi
      · exact ⟨s1, hs1.mono fun _ => .inl, hat1, h⟩
      · exact ⟨s2, hs2.mono fun _ => .inl, hat2, h⟩
      · exact ⟨_, (hs2.setReg x).mono fun _ hr => hr.imp_right fun h0 => ⟨htstset, h0⟩, hat2.setReg x, h⟩
    · obtain h | h := execStores_byte hplace hread hst1 hst2 hi
      · exact ⟨s1, hs1.mono fun _ => .inl, hat1, h⟩
      · exact ⟨s2, hs2.mono fun _ => .inl, hat2, h⟩

end Sys2Proof.Machine
end

section
/-! PROOFS. The results and codes of the one-operand operations, as their rules state them (41 R303 to R325). -/

namespace Sys2Proof.Machine

/-! ## The codes in the PS (10_state R31) -/

theorem cc_n (s : State) : s.cc.n = s.ps.getLsbD 3 := by simp [State.cc, Cc.ofBits]

theorem cc_c (s : State) : s.cc.c = s.ps.getLsbD 0 := by simp [State.cc, Cc.ofBits]

theorem mergeBits_lowNibble (old : Word) (b : BitVec 4) :
    mergeBits old 0o17#16 (b.setWidth 16) = old.extractLsb' 4 12 ++ b := by
  have hmask : ∀ i < 16, (0o17#16 : Word).getLsbD i = decide (i < 4) := by decide
  refine BitVec.eq_of_getLsbD_eq fun i hi => ?_
  rw [getLsbD_mergeBits, hmask i hi, BitVec.getLsbD_append, BitVec.getLsbD_setWidth, BitVec.getLsbD_extractLsb']
  by_cases h : i < 4
  · simp [h, hi]
  · simp [h, show i - 4 < 12 by omega, show 4 + (i - 4) = i by omega]

/-- Setting the codes replaces `PS[3:0]` and nothing else. -/
theorem withCc_eq_append (s : State) (n z v c : Bool) : s.withCc ⟨n, z, v, c⟩ = { s with
    ps := s.ps.extractLsb' 4 12 ++ BitVec.ofBool n ++ BitVec.ofBool z ++ BitVec.ofBool v ++ BitVec.ofBool c } := by
  refine congrArg (fun ps => { s with ps := ps }) ((mergeBits_lowNibble s.ps _).trans ?_)
  simp only [Cc.bits, BitVec.append_assoc, BitVec.cast_eq]

/-! ## Shifting by one place and adding the carry -/

section
variable {w : Nat} (x : BitVec w) (c : Bool)

theorem sshiftRight_one_eq_ofInt : x.sshiftRight 1 = BitVec.ofInt w (x.toInt / 2) :=
  congrArg (BitVec.ofInt w) (Int.shiftRight_eq_div_pow x.toInt 1)

theorem shiftLeft_one_eq_ofNat : x <<< 1 = BitVec.ofNat w (x.toNat * 2) := by
  refine BitVec.eq_of_toNat_eq ?_
  rw [BitVec.toNat_shiftLeft, Nat.shiftLeft_eq, BitVec.toNat_ofNat, pow_one]

theorem add_carry_eq_ofNat : x + (bif c then 1#w else 0#w) = BitVec.ofNat w (x.toNat + c.toNat) := by
  rw [BitVec.ofNat_add, BitVec.ofNat_toNat, BitVec.setWidth_eq]
  cases c <;> rfl

theorem sub_carry_eq_ofInt : x - (bif c then 1#w else 0#w) = BitVec.ofInt w (x.toInt - c.toNat) := by
  rw [Int.sub_eq_add_neg, BitVec.ofInt_add, BitVec.ofInt_neg, BitVec.ofInt_toInt, BitVec.sub_eq_add_neg]
  cases c <;> simp

end

/-- Rotating right puts the carry above the upper bits (R317). -/
theorem rotateRight_eq_append {n : Nat} (x : BitVec (1 + n)) (c : Bool) :
    (x >>> 1) ||| (bif c then BitVec.intMin (1 + n) else 0#(1 + n)) = BitVec.ofBool c ++ x.extractLsb' 1 n := by
  have hcarry (i : Nat) : (bif c then BitVec.intMin (1 + n) else 0#(1 + n)).getLsbD i = (c && decide (i = n)) := by
    cases c with
    | false => exact BitVec.getLsbD_zero
    | true => rw [cond_true, BitVec.getLsbD_intMin, Bool.true_and, decide_eq_decide]; omega
  refine BitVec.eq_of_getLsbD_eq fun i hi => ?_
  rw [BitVec.getLsbD_append, BitVec.getLsbD_or, BitVec.getLsbD_ushiftRight, BitVec.getLsbD_extractLsb', hcarry]
  by_cases hn : i < n
  · simp [hn, hn.ne]
  · obtain rfl : i = n := by omega
    simp

/-- Rotating left puts the carry below the lower bits (R319). -/
theorem rotateLeft_eq_append {n : Nat} (x : BitVec (n + 1)) (c : Bool) :
    (x <<< 1) ||| (bif c then 1#(n + 1) else 0#(n + 1)) = x.extractLsb' 0 n ++ BitVec.ofBool c := by
  have hcarry (i : Nat) : (bif c then 1#(n + 1) else 0#(n + 1)).getLsbD i = (c && decide (i = 0)) := by
    cases c with
    | false => exact BitVec.getLsbD_zero
    | true => rw [cond_true, BitVec.getLsbD_one, decide_eq_true n.succ_pos]
  refine BitVec.eq_of_getLsbD_eq fun i hi => ?_
  rw [BitVec.getLsbD_append, BitVec.getLsbD_or, BitVec.getLsbD_shiftLeft, BitVec.getLsbD_extractLsb', hcarry]
  cases i with
  | zero => simp
  | succ j => simp [show j < n by omega]

/-! ## Results and codes, at every width -/

section
variable {w : Nat} {k : Cc} {c : Bool} {least most : BitVec w} (x : BitVec w)

theorem aluInc_eq (hmost : BitVec.intMax w = most) (hc : k.c = c) :
    aluInc w k x = (x + 1#w, codes (x + 1#w) (decide (x = most)) c) := by
  subst hmost hc
  rfl

theorem aluDec_eq (hleast : BitVec.intMin w = least) (hc : k.c = c) :
    aluDec w k x = (x - 1#w, codes (x - 1#w) (decide (x = least)) c) := by
  subst hleast hc
  rfl

theorem aluNeg_eq (hleast : BitVec.intMin w = least) :
    aluNeg w k x = (-x, codes (-x) (decide (-x = least)) (decide (-x ≠ 0#w))) := by
  subst hleast
  unfold aluNeg
  rw [BitVec.zero_sub, decide_not]
  rfl

theorem aluAsr_eq : aluAsr w k x = (BitVec.ofInt w (x.toInt / 2),
    codes (BitVec.ofInt w (x.toInt / 2)) ((BitVec.ofInt w (x.toInt / 2)).msb ^^ x.getLsbD 0) (x.getLsbD 0)) := by
  rw [← sshiftRight_one_eq_ofInt]
  rfl

theorem aluAsl_eq : aluAsl w k x = (BitVec.ofNat w (x.toNat * 2),
    codes (BitVec.ofNat w (x.toNat * 2)) ((BitVec.ofNat w (x.toNat * 2)).msb ^^ x.getLsbD (w - 1)) (x.getLsbD (w - 1))) := by
  rw [← shiftLeft_one_eq_ofNat, ← BitVec.msb_eq_getLsbD_last]
  rfl

theorem aluAdc_eq (hmost : BitVec.intMax w = most) (hc : k.c = c) : aluAdc w k x = (BitVec.ofNat w (x.toNat + c.toNat),
    codes (BitVec.ofNat w (x.toNat + c.toNat)) (decide (x = most) && c) (decide (x = BitVec.allOnes w) && c)) := by
  subst hmost hc
  rw [← add_carry_eq_ofNat]
  rfl

theorem aluSbc_eq (hleast : BitVec.intMin w = least) (hc : k.c = c) : aluSbc w k x = (BitVec.ofInt w (x.toInt - c.toNat),
    codes (BitVec.ofInt w (x.toInt - c.toNat)) (decide (x = least) && c) (decide (x = 0#w) && c)) := by
  subst hleast hc
  rw [← sub_carry_eq_ofInt]
  rfl

end

section
variable {n : Nat} {k : Cc} {c : Bool}

theorem aluRor_eq (x : BitVec (1 + n)) (hc : k.c = c) :
    aluRor (1 + n) k x = (BitVec.ofBool c ++ x.extractLsb' 1 n, codes (BitVec.ofBool c ++ x.extractLsb' 1 n)
      ((BitVec.ofBool c ++ x.extractLsb' 1 n).msb ^^ x.getLsbD 0) (x.getLsbD 0)) := by
  subst hc
  rw [← rotateRight_eq_append]
  rfl

theorem aluRol_eq (x : BitVec (n + 1)) (hc : k.c = c) :
    aluRol (n + 1) k x = (x.extractLsb' 0 n ++ BitVec.ofBool c, codes (x.extractLsb' 0 n ++ BitVec.ofBool c)
      ((x.extractLsb' 0 n ++ BitVec.ofBool c).msb ^^ x.getLsbD n) (x.getLsbD n)) := by
  subst hc
  rw [← rotateLeft_eq_append]
  exact congrArg (fun b => (_, Cc.ofShift _ b)) (BitVec.msb_eq_getLsbD_last x)

end

end Sys2Proof.Machine
end

section
/-! PROOFS. The one-operand instructions that change their operand: result, codes and early ends (40 R264, R268; 41 R303 to R325;
20_memory R156; 60 R600). -/

namespace Sys2Proof.Machine

/-! ## Early ends -/

section
variable {s t : State} {e : Exit}

/-- What the instruction's body raises is taken at once. -/
theorem endsEarly_of_body {i : Instr} {body : M Unit} (hexec : exec i s = complete body s) (h : body s = .error e t) :
    s.EndsEarly [i] e t := by
  intro j hj
  obtain rfl := List.mem_singleton.1 hj
  rw [hexec]
  cases e with
  | raise v => exact complete_raise h
  | ended => exact complete_ended h

/-- What ends each of two instructions early ends both. -/
theorem endsEarly_pair {i j : Instr} (hi : s.EndsEarly [i] e t) (hj : s.EndsEarly [j] e t) : s.EndsEarly [i, j] e t :=
  List.forall_mem_cons.2 ⟨hi i (List.mem_singleton_self i), hj⟩

end

/-! ## The PS while operands are evaluated and read -/

section
variable {s s1 s2 : State} {sz : Size} {dst : Operand} {p : Place} {x : Word}

theorem place_ok_ps (h : place sz dst s = .ok p s1) : s1.ps = s.ps := (place_ok h).1.rest.ps

theorem place_read_ok_ps (hplace : place sz dst s = .ok p s1) (hread : readPlace sz p .modify s1 = .ok x s2) :
    s2.ps = s.ps :=
  (readPlace_once (by decide) hread).regs.1.trans (place_ok_ps hplace)

theorem cc_congr {t : State} (h : t.ps = s.ps) : t.cc = s.cc := by rw [State.cc, State.cc, h]

end

/-! ## Read, compute, write, set the codes -/

/-- What `modifyOperand` and `swapBytes` do, with the result given as a function of the old codes and the operand. -/
def modifyWith (sz : Size) (f : Cc → Word → Word × Cc) (dst : Operand) : M Unit := do
  let p ← place sz dst
  let x ← readPlace sz p .modify
  let k ← look State.cc
  let wrotePs ← writePlace sz p (f k x).1
  setCc wrotePs (f k x).2

theorem modifyOperand_eq_modifyWith (sz : Size) (f : Unary) (dst : Operand) :
    modifyOperand sz f dst = modifyWith sz (unaryAt sz f) dst := rfl

theorem swapBytes_eq_modifyWith (dst : Operand) : swapBytes dst = modifyWith .word (fun _ => swabResult) dst := rfl

/-- Where the instruction reads `x` with the C bit `c`, it writes the word `r.1` and sets the codes `r.2`. -/
def Modifies (i : Instr) (sz : Size) (dst : Operand) (x : Word) (c : Bool) (r : Word × Cc) : Prop :=
  ∃ f, (∀ s, exec i s = complete (modifyWith sz f dst) s) ∧ ∀ k : Cc, k.c = c → f k x = r

section
variable {i : Instr} {dst : Operand} {x : Word} {c : Bool}

theorem modifies_word {r : Word × Cc} (f : Unary) (hexec : ∀ s, exec i s = complete (modifyOperand .word f dst) s)
    (h : ∀ k : Cc, k.c = c → f 16 k x = r) : Modifies i .word dst x c r :=
  ⟨unaryAt .word f, fun s => by rw [hexec, modifyOperand_eq_modifyWith], h⟩

theorem modifies_byte {r : Byte × Cc} (f : Unary) (hexec : ∀ s, exec i s = complete (modifyOperand .byte f dst) s)
    (h : ∀ k : Cc, k.c = c → f 8 k (x.extractLsb' 0 8) = r) : Modifies i .byte dst x c (lowByte r.1, r.2) :=
  ⟨unaryAt .byte f, fun s => by rw [hexec, modifyOperand_eq_modifyWith],
    fun k hk => congrArg (fun r => (lowByte r.1, r.2)) (h k hk)⟩

end

/-- The word instructions have the results and codes of their table. -/
theorem modifies_unaryWordTable (dst : Operand) (x : Word) (c : Bool) :
    ∀ row ∈ unaryWordTable dst x c, Modifies row.1 .word dst x c row.2 := by
  unfold unaryWordTable
  simp only [List.forall_mem_cons]
  exact ⟨modifies_word aluCom (fun _ => rfl) fun _ _ => rfl,
    modifies_word aluInc (fun _ => rfl) fun _ => aluInc_eq x (by decide),
    modifies_word aluDec (fun _ => rfl) fun _ => aluDec_eq x (by decide),
    modifies_word aluNeg (fun _ => rfl) fun _ _ => aluNeg_eq x (by decide),
    modifies_word aluAsr (fun _ => rfl) fun _ _ => aluAsr_eq x,
    modifies_word aluAsl (fun _ => rfl) fun _ _ => aluAsl_eq x,
    modifies_word aluRor (fun _ => rfl) fun _ => aluRor_eq (n := 15) x,
    modifies_word aluRol (fun _ => rfl) fun _ => aluRol_eq (n := 15) x,
    ⟨fun _ => swabResult, fun s => congrArg (complete · s) (swapBytes_eq_modifyWith dst), fun _ _ => rfl⟩,
    modifies_word aluAdc (fun _ => rfl) fun _ => aluAdc_eq x (by decide),
    modifies_word aluSbc (fun _ => rfl) fun _ => aluSbc_eq x (by decide),
    fun _ h => absurd h List.not_mem_nil⟩

/-- The byte instructions have the results and codes of theirs. -/
theorem modifies_unaryByteTable (dst : Operand) (x : Word) (c : Bool) :
    ∀ row ∈ unaryByteTable dst (x.extractLsb' 0 8) c, Modifies row.1 .byte dst x c (lowByte row.2.1, row.2.2) := by
  unfold unaryByteTable
  simp only [List.forall_mem_cons]
  exact ⟨modifies_byte aluCom (fun _ => rfl) fun _ _ => rfl,
    modifies_byte aluInc (fun _ => rfl) fun _ => aluInc_eq _ (by decide),
    modifies_byte aluDec (fun _ => rfl) fun _ => aluDec_eq _ (by decide),
    modifies_byte aluNeg (fun _ => rfl) fun _ _ => aluNeg_eq _ (by decide),
    modifies_byte aluAsr (fun _ => rfl) fun _ _ => aluAsr_eq _,
    modifies_byte aluAsl (fun _ => rfl) fun _ _ => aluAsl_eq _,
    modifies_byte aluRor (fun _ => rfl) fun _ => aluRor_eq (n := 7) (x.extractLsb' 0 8),
    modifies_byte aluRol (fun _ => rfl) fun _ => aluRol_eq (n := 7) (x.extractLsb' 0 8),
    modifies_byte aluAdc (fun _ => rfl) fun _ => aluAdc_eq _ (by decide),
    modifies_byte aluSbc (fun _ => rfl) fun _ => aluSbc_eq _ (by decide),
    fun _ h => absurd h List.not_mem_nil⟩

section
variable {i : Instr} {sz : Size} {dst : Operand} {x : Word} {c : Bool} {r : Word × Cc} {s s1 s2 t : State} {p : Place} {b : Bool}
  {e : Exit}

theorem Modifies.next (h : Modifies i sz dst x (s.ps.getLsbD 0) r) (hplace : place sz dst s = .ok p s1)
    (hread : readPlace sz p .modify s1 = .ok x s2) (hwrite : writePlace sz p r.1 s2 = .ok b t) :
    exec i s = .next (t.finish b r.2) := by
  obtain ⟨f, hexec, hf⟩ := h
  obtain rfl : f s2.cc x = r := hf _ (by rw [cc_c, place_read_ok_ps hplace hread])
  exact (hexec s).trans (complete_ok ((run_bind_ok hplace).trans ((run_bind_ok hread).trans (run_bind_ok hwrite))))

/-- The address, the read and the write may each end it (40 R268). -/
theorem Modifies.endsEarly (h : Modifies i sz dst x (s.ps.getLsbD 0) r) :
    (place sz dst s = .error e t → s.EndsEarly [i] e t) ∧
    (place sz dst s = .ok p s1 → readPlace sz p .modify s1 = .error e t → s.EndsEarly [i] e t) ∧
    (place sz dst s = .ok p s1 → readPlace sz p .modify s1 = .ok x s2 → writePlace sz p r.1 s2 = .error e t →
      s.EndsEarly [i] e t) := by
  obtain ⟨f, hexec, hf⟩ := h
  refine ⟨fun hplace => endsEarly_of_body (hexec s) (run_bind_error hplace), fun hplace hread =>
    endsEarly_of_body (hexec s) ((run_bind_ok hplace).trans (run_bind_error hread)), fun hplace hread hwrite => ?_⟩
  obtain rfl : f s2.cc x = r := hf _ (by rw [cc_c, place_read_ok_ps hplace hread])
  exact endsEarly_of_body (hexec s) ((run_bind_ok hplace).trans ((run_bind_ok hread).trans
    ((run_look_bind ..).trans (run_bind_error hwrite))))

/-- On a register nothing but it and the codes changes (40 R251). -/
theorem Modifies.next_register {g : Reg} (h : Modifies i sz ⟨.register, g⟩ (regPart sz (s.reg g)) (s.ps.getLsbD 0) r) :
    exec i s = .next ((s.setReg g (regMerge sz (s.reg g) r.1)).withCc r.2) :=
  h.next rfl rfl rfl

end

/-- Settles O24: each row of the two tables is `Modifies`, and that says how the instruction ends. -/
theorem unaryInstructions : Obligations.UnaryInstructions := by
  intro dst s s1 s2 t p x b e
  have hword := modifies_unaryWordTable dst x (s.ps.getLsbD 0)
  have hbyte := modifies_unaryByteTable dst x (s.ps.getLsbD 0)
  exact ⟨withCc_eq_append s, fun hplace hread row hrow => (hword row hrow).next hplace hread,
    fun hplace hread row hrow => (hbyte row hrow).next hplace hread, fun row hrow => (hword row hrow).endsEarly,
    fun row hrow => (hbyte row hrow).endsEarly⟩

/-! ## On a register (40 R251) -/

theorem extractLsb'_lowByte (v : Byte) : (lowByte v).extractLsb' 0 8 = v :=
  (BitVec.setWidth_eq_extractLsb' (by decide)).symm.trans (BitVec.setWidth_setWidth_of_le v (by decide))

theorem extractLsb'_regPart_byte (v : Word) : (regPart .byte v).extractLsb' 0 8 = v.extractLsb' 0 8 :=
  extractLsb'_lowByte _

theorem regMerge_lowByte (old : Word) (v : Byte) : regMerge .byte old (lowByte v) = (old &&& 0o177400#16) ||| lowByte v := by
  have hlow : lowByte v &&& 0o377#16 = lowByte v :=
    (regPart_byte (lowByte v)).symm.trans (congrArg lowByte (extractLsb'_lowByte v))
  rw [regMerge_byte, hlow]

/-- Settles O25: on a register `Modifies` is one register written and the codes set. -/
theorem unaryOnRegister : Obligations.UnaryOnRegister := by
  intro r s
  refine ⟨fun row hrow => (modifies_unaryWordTable _ _ _ row hrow).next_register, fun row hrow => ?_⟩
  rw [← extractLsb'_regPart_byte] at hrow
  rw [← regMerge_lowByte]
  exact (modifies_unaryByteTable _ _ _ row hrow).next_register

end Sys2Proof.Machine
end

section
/-! PROOFS. The one-operand instructions that only write or only read their operand, and the moves of the low byte of the PS
(10_state R38; 40 R263, R268; 41 R301, R302, R311, R312, R326, R330, R331). -/

namespace Sys2Proof.Machine

section
variable {i : Instr} {sz : Size} {dst : Operand} {s s1 t : State} {p : Place} {x : Word} {b : Bool} {e : Exit}

/-! ## Writing without reading -/

section
variable {f : Cc → Word × Cc} {v : Word} {k : Cc}

theorem storeOperand_next (hexec : exec i s = complete (storeOperand sz f dst) s) (hf : f s.cc = (v, k))
    (hplace : place sz dst s = .ok p s1) (hwrite : writePlace sz p v s1 = .ok b t) : exec i s = .next (t.finish b k) := by
  rw [← cc_congr (place_ok_ps hplace)] at hf
  obtain ⟨rfl, rfl⟩ := Prod.mk.inj hf
  exact hexec.trans (complete_ok (storeOperand_run f hplace hwrite))

theorem storeOperand_endsEarly_place (hexec : exec i s = complete (storeOperand sz f dst) s)
    (hplace : place sz dst s = .error e t) : s.EndsEarly [i] e t :=
  endsEarly_of_body hexec (run_bind_error hplace)

theorem storeOperand_endsEarly_write (hexec : exec i s = complete (storeOperand sz f dst) s) (hf : f s.cc = (v, k))
    (hplace : place sz dst s = .ok p s1) (hwrite : writePlace sz p v s1 = .error e t) : s.EndsEarly [i] e t := by
  rw [← cc_congr (place_ok_ps hplace)] at hf
  obtain ⟨rfl, rfl⟩ := Prod.mk.inj hf
  exact endsEarly_of_body hexec ((run_bind_ok hplace).trans ((run_look_bind ..).trans (run_bind_error hwrite)))

end

/-- The result of CLR and CLRB, and their codes (R301, R302). -/
theorem unaryAt_aluClr (sz : Size) (k : Cc) : unaryAt sz aluClr k 0#16 = (0#16, ⟨false, true, false, false⟩) := by
  cases sz <;> rfl

/-- The result of SXT from N, and its codes (R326). -/
theorem sxtResult_eq (s : State) : sxtResult s.cc =
    (if s.ps.getLsbD 3 then 0o177777#16 else 0#16, ⟨s.ps.getLsbD 3, !s.ps.getLsbD 3, false, s.ps.getLsbD 0⟩) := by
  rw [sxtResult, cc_n, cc_c, Bool.cond_eq_ite]

/-! ## Reading without writing -/

theorem testOperand_next {f : Unary} {k : Cc} (hexec : exec i s = complete (testOperand sz f dst) s)
    (hcodes : (unaryAt sz f s1.cc x).2 = k) (hread : readOp sz dst s = .ok x s1) : exec i s = .next (s1.withCc k) := by
  subst hcodes
  exact hexec.trans (complete_ok (run_bind_ok hread))

theorem testOperand_endsEarly {f : Unary} (hexec : exec i s = complete (testOperand sz f dst) s)
    (hread : readOp sz dst s = .error e t) : s.EndsEarly [i] e t :=
  endsEarly_of_body hexec (run_bind_error hread)

end

section
variable (dst : Operand) (s : State)

theorem exec_clr : exec (.clr dst) s = complete (storeOperand .word (fun k => unaryAt .word aluClr k 0#16) dst) s := rfl
theorem exec_clrb : exec (.clrb dst) s = complete (storeOperand .byte (fun k => unaryAt .byte aluClr k 0#16) dst) s := rfl
theorem exec_sxt : exec (.sxt dst) s = complete (storeOperand .word sxtResult dst) s := rfl
theorem exec_tst : exec (.tst dst) s = complete (testOperand .word aluTst dst) s := rfl
theorem exec_tstb : exec (.tstb dst) s = complete (testOperand .byte aluTst dst) s := rfl

end

/-- Settles O27: CLR, CLRB and SXT are `storeOperand`, TST and TSTB are `testOperand`. -/
theorem clearSignExtendTest : Obligations.ClearSignExtendTest := by
  intro dst s
  have hclr := unaryAt_aluClr .word s.cc
  have hclrb := unaryAt_aluClr .byte s.cc
  have hsxt := sxtResult_eq s
  exact ⟨fun p s1 b t => storeOperand_next (exec_clr dst s) hclr, fun p s1 b t => storeOperand_next (exec_clrb dst s) hclrb,
    fun p s1 b t => storeOperand_next (exec_sxt dst s) hsxt, fun x s1 => testOperand_next (exec_tst dst s) rfl,
    fun x s1 => testOperand_next (exec_tstb dst s) rfl, fun e t => ⟨fun hplace => endsEarly_pair
        (storeOperand_endsEarly_place (exec_clr dst s) hplace) (storeOperand_endsEarly_place (exec_sxt dst s) hplace),
      storeOperand_endsEarly_place (exec_clrb dst s), testOperand_endsEarly (exec_tst dst s),
      testOperand_endsEarly (exec_tstb dst s), fun p s1 => storeOperand_endsEarly_write (exec_clr dst s) hclr,
      fun p s1 => storeOperand_endsEarly_write (exec_clrb dst s) hclrb,
      fun p s1 => storeOperand_endsEarly_write (exec_sxt dst s) hsxt⟩⟩

/-! ## The low byte of the PS -/

section
variable {f : Operand} {s s1 t : State} {p : Place} {v : Word} {b : Bool} {e : Exit}

/-- MFPS sets the codes of the byte it moved. -/
theorem mfps_next (hplace : place .byte f s = .ok p s1)
    (hwrite : writeByteExtended p (s.ps.extractLsb' 0 8) s1 = .ok b t) :
    exec (.mfps f) s = .next (t.finish b (codes (s.ps.extractLsb' 0 8) false (s.ps.getLsbD 0))) := by
  rw [← place_ok_ps hplace] at hwrite ⊢
  rw [← cc_c]
  exact complete_ok (moveFromPs_run hplace hwrite)

/-- Outside mode 0 the byte is written as one. -/
theorem writeByteExtended_memory (hm : f.mode ≠ .register) (hplace : place .byte f s = .ok p s1) (v : Byte) :
    writeByteExtended p v = writePlace .byte p (lowByte v) := by
  obtain ⟨sp, a, rfl, -⟩ := place_memory_ok hm hplace
  rfl

theorem mfps_endsEarly_write (hm : f.mode ≠ .register) (hplace : place .byte f s = .ok p s1)
    (hwrite : writePlace .byte p (lowByte (s.ps.extractLsb' 0 8)) s1 = .error e t) : s.EndsEarly [.mfps f] e t := by
  rw [← writeByteExtended_memory hm hplace, ← place_ok_ps hplace] at hwrite
  exact endsEarly_of_body rfl ((run_bind_ok hplace).trans
    ((run_look_bind ..).trans ((run_look_bind ..).trans (run_bind_error hwrite))))

/-- The bits that MTPS loads, by the mode (10_state R38). -/
theorem writePs_of_mode (s : State) (v : Word) : s.writePs (if s.curMode = kernel then 0o357#16 else 0o17#16) v = { s with
    ps := if s.ps.extractLsb' 14 2 = 0#2 then (s.ps &&& 0o177420#16) ||| (v &&& 0o357#16)
      else (s.ps &&& 0o177760#16) ||| (v &&& 0o17#16)
    flow := { s.flow with prefetchFault := true } } := by
  refine congrArg (fun ps => { s with ps := ps, flow := { s.flow with prefetchFault := true } }) ?_
  by_cases hk : s.curMode = kernel
  · rw [if_pos hk, if_pos (show s.ps.extractLsb' 14 2 = 0#2 from hk)]
    rfl
  · rw [if_neg hk, if_neg (show ¬s.ps.extractLsb' 14 2 = 0#2 from hk)]
    rfl

end

/-- Settles O28: `mfps_next` with the place of each mode, and `writePs_of_mode`. -/
theorem moveByteOfPs : Obligations.MoveByteOfPs := by
  intro f s
  refine ⟨fun hm => mfps_next (place_register .byte s hm) rfl, fun hm p s1 b t hplace hwrite => ?_, fun v s1 hread => ?_,
    fun e t => ⟨fun hplace => endsEarly_of_body rfl (run_bind_error hplace), fun hm p s1 => mfps_endsEarly_write hm,
      fun hread => endsEarly_of_body rfl (run_bind_error hread)⟩⟩
  · rw [← writeByteExtended_memory hm hplace] at hwrite
    exact mfps_next hplace hwrite
  · rw [← writePs_of_mode]
    exact complete_ok (run_bind_ok hread)

end Sys2Proof.Machine
end

section
/-! PROOFS. TSTSET and WRTLCK, and the locked pair of cycles they make (20_memory R152; 41 R333, R334; 60 R615). -/

namespace Sys2Proof.Machine

/-! ## The locked write -/

section
variable {u t : State} {p : Place} {v : Word} {b : Bool}

/-- When no other master stores it is an ordinary write. -/
theorem lockedCycle_undisturbed_ok {α : Type} {m : M α} {x : α} (hquiet : u.Undisturbed) (h : lockedCycle m u = .ok x t) :
    m u = .ok x t := by
  obtain ⟨w, hm, -⟩ := lockedCycle_ok h
  rw [holdMasters_of_undisturbed hquiet] at hm
  cases h.symm.trans (lockedCycle_of_undisturbed hquiet hm)
  exact hm

/-- In storage the operand is stored first, and then what other masters would have stored before it (20_memory R152). -/
theorem lockedCycle_writePlace_storage {pa : PAddr} (hwf : u.mem.wf = true) (htarget : p.target u = some pa)
    (hd : u.deviceAt pa = .storage) (h : lockedCycle (writePlace .word p v) u = .ok b t) :
    b = false ∧ t = { u with mmu := t.mmu, mem := t.mem, answers := u.answers.tail } ∧
    ∃ m : Memory, m.readWord (wordAddr pa).toNat = v ∧ (∀ a, a ∉ storedBytes .word pa → m.read a = u.mem.read a) ∧
      t.mem = (State.answered { u with mem := m }).mem := by
  obtain ⟨w, hwrite, rfl⟩ := lockedCycle_ok h
  cases p with
  | reg r => cases htarget
  | mem sp va =>
    have hheld : (Place.mem sp va).target u.holdMasters = some pa := target_congr (s := u) rfl rfl htarget
    obtain ⟨rfl, u', -, rfl⟩ := writePlace_storage_ok hheld hd hwrite
    have htail : u.holdMasters.answers.tail = u.answers.tail := congrArg State.answers (holdMasters_answered u)
    rw [holdMasters_answered, htail]
    exact ⟨rfl, rfl, u.mem.store .word pa v, (load_store hwf).1 rfl, fun a => read_store_of_not_mem, rfl⟩

end

/-! ## The instructions -/

section
variable {dst : Operand} {s s1 s2 t : State} {p : Place} {x : Word} {b : Bool} {e : Exit}

/-- On a register both are reserved (R333, R334). -/
theorem locked_register (hm : dst.mode = .register) :
    exec (.tstset dst) s = .next (s.takeEvent .reservedInstruction) ∧
    exec (.wrtlck dst) s = .next (s.takeEvent .reservedInstruction) :=
  ⟨complete_raise (by rw [testAndSet, if_pos hm, run_raise]), complete_raise (by rw [writeLocked, if_pos hm, run_raise])⟩

theorem tstset_next (hm : dst.mode ≠ .register) (hplace : place .word dst s = .ok p s1)
    (hread : readPlace .word p .modify s1 = .ok x s2)
    (hwrite : lockedCycle (writePlace .word p (x ||| 1#16)) (s2.setReg .r0 x) = .ok b t) :
    exec (.tstset dst) s = .next (t.finish b (codes x false (x.getLsbD 0))) :=
  complete_ok (testAndSet_run hm hplace hread hwrite)

theorem wrtlck_next (hm : dst.mode ≠ .register) (hplace : place .word dst s = .ok p s1)
    (hread : readPlace .word p .modify s1 = .ok x s2) (hwrite : lockedCycle (writePlace .word p (s2.reg .r0)) s2 = .ok b t) :
    exec (.wrtlck dst) s = .next (t.finish b (codes (s2.reg .r0) false (s.ps.getLsbD 0))) := by
  rw [← place_read_ok_ps hplace hread, ← cc_c]
  exact complete_ok (writeLocked_run hm hplace hread hwrite)

/-- What TSTSET does once it has read the word. -/
def testAndSetAt (p : Place) (old : Word) : M Unit := do
  update fun s => s.setReg .r0 old
  let wrotePs ← lockedCycle (writePlace .word p (old ||| 1#16))
  setCc wrotePs (Cc.of old false (old.getLsbD 0))

/-- What WRTLCK does once it has read the word. -/
def writeLockedAt (p : Place) (_ : Word) : M Unit := do
  let v ← look fun s => s.reg .r0
  let k ← look State.cc
  let wrotePs ← lockedCycle (writePlace .word p v)
  setCc wrotePs (Cc.of v false k.c)

/-- Outside mode 0 the instruction evaluates the address, reads the word and then does the rest. -/
def ReadsThen (i : Instr) (dst : Operand) (s : State) (rest : Place → Word → M Unit) : Prop :=
  exec i s = complete (place .word dst >>= fun p => readPlace .word p .modify >>= rest p) s

theorem readsThen_tstset (s : State) (hm : dst.mode ≠ .register) : ReadsThen (.tstset dst) dst s testAndSetAt :=
  congrArg (fun body => complete body s) (if_neg hm)

theorem readsThen_wrtlck (s : State) (hm : dst.mode ≠ .register) : ReadsThen (.wrtlck dst) dst s writeLockedAt :=
  congrArg (fun body => complete body s) (if_neg hm)

section
variable {i : Instr} {rest : Place → Word → M Unit}

theorem ReadsThen.endsEarly_place (h : ReadsThen i dst s rest) (hplace : place .word dst s = .error e t) :
    s.EndsEarly [i] e t :=
  endsEarly_of_body h (run_bind_error hplace)

theorem ReadsThen.endsEarly_read (h : ReadsThen i dst s rest) (hplace : place .word dst s = .ok p s1)
    (hread : readPlace .word p .modify s1 = .error e t) : s.EndsEarly [i] e t :=
  endsEarly_of_body h ((run_bind_ok hplace).trans (run_bind_error hread))

theorem ReadsThen.endsEarly_rest (h : ReadsThen i dst s rest) (hplace : place .word dst s = .ok p s1)
    (hread : readPlace .word p .modify s1 = .ok x s2) (hrest : rest p x s2 = .error e t) : s.EndsEarly [i] e t :=
  endsEarly_of_body h ((run_bind_ok hplace).trans ((run_bind_ok hread).trans hrest))

end

end

/-- Settles O29: outside mode 0 each instruction is `ReadsThen`; its write is described by `lockedCycle_writePlace_storage`. -/
theorem interlockedInstructions : Obligations.InterlockedInstructions := by
  intro dst s
  refine ⟨locked_register, fun hm p s1 x s2 hplace hread => ⟨fun b t => tstset_next hm hplace hread,
    fun b t => wrtlck_next hm hplace hread⟩, fun hm e t => ?_, fun u t p v b h =>
      ⟨fun hquiet => lockedCycle_undisturbed_ok hquiet h, fun pa hwf htarget hd =>
        lockedCycle_writePlace_storage hwf htarget hd h⟩⟩
  have htstset := readsThen_tstset s hm
  have hwrtlck := readsThen_wrtlck s hm
  refine ⟨fun hplace => endsEarly_pair (htstset.endsEarly_place hplace) (hwrtlck.endsEarly_place hplace),
    fun p s1 hplace => ⟨fun hread => ?_, fun x s2 hread => ⟨fun hwrite => ?_, fun hwrite => ?_⟩⟩⟩
  · exact endsEarly_pair (htstset.endsEarly_read hplace hread) (hwrtlck.endsEarly_read hplace hread)
  · exact htstset.endsEarly_rest hplace hread ((run_update_bind ..).trans (run_bind_error hwrite))
  · exact hwrtlck.endsEarly_rest hplace hread
      ((run_look_bind ..).trans ((run_look_bind ..).trans (run_bind_error hwrite)))

end Sys2Proof.Machine
end

section
/-! PROOFS. The operands of the two-operand instructions: their order, and what ends them early (40 R266 to R268; 92 D20). -/

namespace Sys2Proof.Machine

/-- The operands in their order, then what the instruction does with them. -/
def withOperands (sz : Size) (src dst : Operand) (rest : Word → Place → M Unit) : M Unit := do
  let early ← earlySource sz src
  let p ← place sz dst
  let x ← lateSource sz src early
  rest x p

section
variable {sz : Size} {src dst : Operand} {s t : State} {x : Word} {p : Place} {e : Exit}

/-! ## The two orders -/

theorem doubleOperands_register (h : src.mode = .register) :
    DoubleOperands sz src dst s x p t ↔ place sz dst s = .ok p t ∧ x = regPart sz (t.reg src.reg) := by
  rw [DoubleOperands, if_pos h]

theorem doubleOperands_memory (h : src.mode ≠ .register) :
    DoubleOperands sz src dst s x p t ↔ ∃ s1, readOp sz src s = .ok x s1 ∧ place sz dst s1 = .ok p t := by
  rw [DoubleOperands, if_neg h]

/-- A register that is read after the destination's address, as XOR's is (R367). -/
theorem doubleOperands_of_place {r : Reg} (h : place .word dst s = .ok p t) :
    DoubleOperands .word ⟨.register, r⟩ dst s (t.reg r) p t := (doubleOperands_register rfl).2 ⟨h, rfl⟩

theorem doubleOperandsEnd_register (h : src.mode = .register) :
    DoubleOperandsEnd sz src dst s e t ↔ place sz dst s = .error e t := by
  rw [DoubleOperandsEnd, if_pos h]

theorem doubleOperandsEnd_memory (h : src.mode ≠ .register) : DoubleOperandsEnd sz src dst s e t ↔
    readOp sz src s = .error e t ∨ ∃ x s1, readOp sz src s = .ok x s1 ∧ place sz dst s1 = .error e t := by
  rw [DoubleOperandsEnd, if_neg h]

/-- Evaluating and reading an operand leaves the PS. -/
theorem readOp_ok_ps (h : readOp sz src s = .ok x t) : t.ps = s.ps := by
  obtain ⟨p, u, hplace, hread⟩ := bind_eq_ok h
  exact (readPlace_once (by decide) hread).regs.1.trans (place_ok_ps hplace)

theorem DoubleOperands.ps (h : DoubleOperands sz src dst s x p t) : t.ps = s.ps := by
  by_cases hm : src.mode = .register
  · obtain ⟨hplace, -⟩ := (doubleOperands_register hm).1 h
    exact place_ok_ps hplace
  · obtain ⟨u, hread, hplace⟩ := (doubleOperands_memory hm).1 h
    exact (place_ok_ps hplace).trans (readOp_ok_ps hread)

/-! ## Running them -/

theorem earlySource_register (sz : Size) (s : State) (h : src.mode = .register) : earlySource sz src s = .ok none s := by
  rw [earlySource, if_pos h]
  rfl

theorem earlySource_memory (sz : Size) (s : State) (h : src.mode ≠ .register) :
    earlySource sz src s = (readOp sz src >>= fun v => (pure (some v) : M (Option Word))) s := by
  rw [earlySource, if_neg h]

/-- The instruction goes on with the source and the destination's place. -/
theorem withOperands_ok (rest : Word → Place → M Unit) (h : DoubleOperands sz src dst s x p t) :
    withOperands sz src dst rest s = rest x p t := by
  by_cases hm : src.mode = .register
  · obtain ⟨hplace, rfl⟩ := (doubleOperands_register hm).1 h
    exact (run_bind_ok (earlySource_register sz s hm)).trans (run_bind_ok hplace)
  · obtain ⟨u, hread, hplace⟩ := (doubleOperands_memory hm).1 h
    have hearly : earlySource sz src s = .ok (some x) u := (earlySource_memory sz s hm).trans (run_bind_ok hread)
    exact (run_bind_ok hearly).trans (run_bind_ok hplace)

/-- It ends where an operand does. -/
theorem withOperands_error (rest : Word → Place → M Unit) (h : DoubleOperandsEnd sz src dst s e t) :
    withOperands sz src dst rest s = .error e t := by
  by_cases hm : src.mode = .register
  · have hplace := (doubleOperandsEnd_register hm).1 h
    exact (run_bind_ok (earlySource_register sz s hm)).trans (run_bind_error hplace)
  · obtain hread | ⟨x, u, hread, hplace⟩ := (doubleOperandsEnd_memory hm).1 h
    · exact run_bind_error ((earlySource_memory sz s hm).trans (run_bind_error hread))
    · have hearly : earlySource sz src s = .ok (some x) u := (earlySource_memory sz s hm).trans (run_bind_ok hread)
      exact (run_bind_ok hearly).trans (run_bind_error hplace)

end

/-! ## An instruction with two operands -/

/-- The instruction evaluates its operands and then does the rest. -/
def ExecWithOperands (i : Instr) (sz : Size) (src dst : Operand) (rest : Word → Place → M Unit) : Prop :=
  ∀ s, exec i s = complete (withOperands sz src dst rest) s

section
variable {i : Instr} {sz : Size} {src dst : Operand} {rest : Word → Place → M Unit} {s s1 t : State} {x : Word} {p : Place}
  {e : Exit}

theorem ExecWithOperands.next (h : ExecWithOperands i sz src dst rest) (hops : DoubleOperands sz src dst s x p s1)
    (hrest : rest x p s1 = .ok () t) : exec i s = .next t :=
  (h s).trans (complete_ok ((withOperands_ok rest hops).trans hrest))

theorem ExecWithOperands.endsEarly_operands (h : ExecWithOperands i sz src dst rest)
    (hend : DoubleOperandsEnd sz src dst s e t) : s.EndsEarly [i] e t :=
  endsEarly_of_body (h s) (withOperands_error rest hend)

theorem ExecWithOperands.endsEarly_rest (h : ExecWithOperands i sz src dst rest)
    (hops : DoubleOperands sz src dst s x p s1) (hrest : rest x p s1 = .error e t) : s.EndsEarly [i] e t :=
  endsEarly_of_body (h s) ((withOperands_ok rest hops).trans hrest)

end

end Sys2Proof.Machine
end

section
/-! PROOFS. The two-operand instructions that change, compare or move: result, codes and early ends (40 R251, R266 to R268;
42 R351 to R356, R361 to R367; 20_memory R156; 60 R600). -/

namespace Sys2Proof.Machine

/-! ## Sums and differences -/

section
variable {w : Nat} (x y : BitVec w)

/-- Adding overflows where the signed sum is not that of the words. -/
theorem saddOverflow_eq_decide_ne : x.saddOverflow y = decide ((x + y).toInt ≠ x.toInt + y.toInt) := by
  cases h : x.saddOverflow y with
  | false => rw [BitVec.toInt_add_of_not_saddOverflow (by simp [h]), decide_eq_false (not_not_intro rfl)]
  | true =>
    have hlt := (x + y).toInt_lt
    have hle := (x + y).le_toInt
    simp only [BitVec.saddOverflow, Bool.or_eq_true, decide_eq_true_eq] at h
    exact (decide_eq_true (by omega)).symm

/-- So for subtracting. -/
theorem ssubOverflow_eq_decide_ne : x.ssubOverflow y = decide ((x - y).toInt ≠ x.toInt - y.toInt) := by
  cases h : x.ssubOverflow y with
  | false => rw [BitVec.toInt_sub_of_not_ssubOverflow (by simp [h]), decide_eq_false (not_not_intro rfl)]
  | true =>
    have hlt := (x - y).toInt_lt
    have hle := (x - y).le_toInt
    simp only [BitVec.ssubOverflow, Bool.or_eq_true, decide_eq_true_eq] at h
    exact (decide_eq_true (by omega)).symm

/-- The carry out of a sum is what the sum lost (R355). -/
theorem carry_eq_decide_ne : decide (2 ^ w ≤ x.toNat + y.toNat) = decide ((x + y).toNat ≠ x.toNat + y.toNat) := by
  rw [decide_eq_decide, BitVec.toNat_add, Ne, Nat.mod_eq_iff_lt (Nat.two_pow_pos w).ne', Nat.not_lt]

/-- V of a difference from the signs: they differ and the result has that of the subtrahend (R353, R356). -/
theorem signs_eq_ssubOverflow : ((x.msb != y.msb) && (y.msb == (x - y).msb)) = x.ssubOverflow y := by
  rw [BitVec.ssubOverflow_eq]
  cases x.msb <;> cases y.msb <;> cases (x - y).msb <;> rfl

theorem aluAdd_eq (k : Cc) : aluAdd w k x y = (x + y, sumCodes x y) := by
  have hsigns : ((x.msb == y.msb) && ((x + y).msb != x.msb)) = x.saddOverflow y := (x.saddOverflow_eq y).symm
  unfold aluAdd sumCodes
  rw [BitVec.add_comm y x, hsigns, saddOverflow_eq_decide_ne, carry_eq_decide_ne]
  rfl

theorem aluCmp_eq (k : Cc) : aluCmp w k x y = (x - y, differenceCodes x y) := by
  unfold aluCmp differenceCodes
  rw [signs_eq_ssubOverflow, ssubOverflow_eq_decide_ne]
  rfl

/-- SUB is CMP with its operands exchanged, and stores. -/
theorem aluSub_eq (k : Cc) : aluSub w k x y = (y - x, differenceCodes y x) := by
  rw [← aluCmp_eq y x k, aluSub, aluCmp, bne_comm]

end

/-! ## Instructions that change their destination -/

/-- What `modifyDouble` does with its operands. -/
def modifyRest (sz : Size) (f : Binary) (x : Word) (p : Place) : M Unit := do
  let y ← readPlace sz p .modify
  let k ← look State.cc
  let wrotePs ← writePlace sz p (binaryAt sz f k x y).1
  setCc wrotePs (binaryAt sz f k x y).2

/-- From the source `x`, the destination `y` and the C bit `c` the instruction writes the word `r.1` and sets the codes `r.2`. -/
def ModifiesDouble (i : Instr) (sz : Size) (src dst : Operand) (x y : Word) (c : Bool) (r : Word × Cc) : Prop :=
  ∃ f : Binary, ExecWithOperands i sz src dst (modifyRest sz f) ∧ ∀ k : Cc, k.c = c → binaryAt sz f k x y = r

section
variable {src dst : Operand} {x y : Word} {c : Bool}

/-- The word instructions have the results and codes of their table. -/
theorem modifiesDouble_binaryWordTable :
    ∀ row ∈ binaryWordTable src dst x y c, ModifiesDouble row.1 .word src dst x y c row.2 := by
  unfold binaryWordTable
  simp only [List.forall_mem_cons]
  refine ⟨⟨aluAdd, fun _ => rfl, fun k _ => aluAdd_eq x y k⟩, ⟨aluSub, fun _ => rfl, fun k _ => aluSub_eq x y k⟩,
    ⟨aluBic, fun _ => rfl, fun k hk => ?_⟩, ⟨aluBis, fun _ => rfl, fun k hk => ?_⟩, fun _ h => absurd h List.not_mem_nil⟩
  · rw [← hk]; rfl
  · rw [← hk]; rfl

/-- The byte instructions have those of theirs. -/
theorem modifiesDouble_binaryByteTable :
    ∀ row ∈ binaryByteTable src dst (x.extractLsb' 0 8) (y.extractLsb' 0 8) c,
      ModifiesDouble row.1 .byte src dst x y c (lowByte row.2.1, row.2.2) := by
  unfold binaryByteTable
  simp only [List.forall_mem_cons]
  refine ⟨⟨aluBic, fun _ => rfl, fun k hk => ?_⟩, ⟨aluBis, fun _ => rfl, fun k hk => ?_⟩, fun _ h => absurd h List.not_mem_nil⟩
  · rw [← hk]; rfl
  · rw [← hk]; rfl

/-- XOR's register is a source in mode 0 (R367). -/
theorem modifiesDouble_xor (r : Reg) :
    ModifiesDouble (.xor r dst) .word ⟨.register, r⟩ dst x y c (y ^^^ x, codes (y ^^^ x) false c) :=
  ⟨aluXor, fun _ => rfl, fun k hk => by rw [← hk]; rfl⟩

end

section
variable {i : Instr} {sz : Size} {src dst : Operand} {x y : Word} {r : Word × Cc} {s s1 s2 t : State} {p : Place} {b : Bool}
  {e : Exit}

/-- The old codes that the result may depend on are those of the first state. -/
theorem DoubleOperands.cc_read {acc : Access} (hops : DoubleOperands sz src dst s x p s1) (hacc : acc ≠ .write)
    (hread : readPlace sz p acc s1 = .ok y s2) : s2.cc.c = s.ps.getLsbD 0 := by
  rw [cc_c, (readPlace_once hacc hread).regs.1, hops.ps]

theorem ModifiesDouble.next (h : ModifiesDouble i sz src dst x y (s.ps.getLsbD 0) r)
    (hops : DoubleOperands sz src dst s x p s1) (hread : readPlace sz p .modify s1 = .ok y s2)
    (hwrite : writePlace sz p r.1 s2 = .ok b t) : exec i s = .next (t.finish b r.2) := by
  obtain ⟨f, hexec, hf⟩ := h
  obtain rfl : binaryAt sz f s2.cc x y = r := hf _ (hops.cc_read (by decide) hread)
  exact hexec.next hops ((run_bind_ok hread).trans (run_bind_ok hwrite))

/-- An operand, the read of the destination and its write may each end it (40 R268). -/
theorem ModifiesDouble.endsEarly (h : ModifiesDouble i sz src dst x y (s.ps.getLsbD 0) r) :
    (DoubleOperandsEnd sz src dst s e t → s.EndsEarly [i] e t) ∧
    (DoubleOperands sz src dst s x p s1 →
      (readPlace sz p .modify s1 = .error e t → s.EndsEarly [i] e t) ∧
      (readPlace sz p .modify s1 = .ok y s2 → writePlace sz p r.1 s2 = .error e t → s.EndsEarly [i] e t)) := by
  obtain ⟨f, hexec, hf⟩ := h
  refine ⟨hexec.endsEarly_operands, fun hops => ⟨fun hread => hexec.endsEarly_rest hops (run_bind_error hread),
    fun hread hwrite => ?_⟩⟩
  obtain rfl : binaryAt sz f s2.cc x y = r := hf _ (hops.cc_read (by decide) hread)
  exact hexec.endsEarly_rest hops ((run_bind_ok hread).trans ((run_look_bind ..).trans (run_bind_error hwrite)))

end

/-- Settles O30: each row of the two tables is `ModifiesDouble`, and so is XOR with its register as the source. -/
theorem binaryInstructions : Obligations.BinaryInstructions := by
  intro src dst r s s1 s2 t p x y b e
  have hxor := modifiesDouble_xor (dst := dst) (x := s1.reg r) (y := y) (c := s.ps.getLsbD 0) r
  obtain ⟨hxorOperands, hxorRest⟩ := hxor.endsEarly (s1 := s1) (s2 := s2) (t := t) (p := p) (e := e)
  exact ⟨fun hops hread row hrow => (modifiesDouble_binaryWordTable row hrow).next hops hread,
    fun hops hread row hrow => (modifiesDouble_binaryByteTable row hrow).next hops hread,
    fun hplace => hxor.next (doubleOperands_of_place hplace),
    fun row hrow => (modifiesDouble_binaryWordTable row hrow).endsEarly,
    fun row hrow => (modifiesDouble_binaryByteTable row hrow).endsEarly,
    fun hplace => hxorOperands ((doubleOperandsEnd_register rfl).2 hplace),
    fun hplace => hxorRest (doubleOperands_of_place hplace)⟩

/-! ## Instructions that compare -/

/-- What `compareDouble` does with its operands. -/
def compareRest (sz : Size) (f : Binary) (x : Word) (p : Place) : M Unit := do
  let y ← readPlace sz p
  let k ← look State.cc
  setCc false (binaryAt sz f k x y).2

section
variable {i j : Instr} {sz : Size} {f g : Binary} {src dst : Operand} {x y : Word} {k : Cc} {s s1 t : State} {p : Place}
  {e : Exit}

theorem compareDouble_next (hexec : ExecWithOperands i sz src dst (compareRest sz f))
    (hops : DoubleOperands sz src dst s x p s1) (hread : readPlace sz p .read s1 = .ok y t)
    (hcodes : t.cc.c = s.ps.getLsbD 0 → (binaryAt sz f t.cc x y).2 = k) : exec i s = .next (t.withCc k) := by
  obtain rfl := hcodes (hops.cc_read (by decide) hread)
  exact hexec.next hops (run_bind_ok hread)

/-- An operand or the read of the destination may end it, and its companion. -/
theorem compareDouble_endsEarly (hi : ExecWithOperands i sz src dst (compareRest sz f))
    (hj : ExecWithOperands j sz src dst (compareRest sz g))
    (h : DoubleOperandsEnd sz src dst s e t ∨
      DoubleOperands sz src dst s x p s1 ∧ readPlace sz p .read s1 = .error e t) : s.EndsEarly [i, j] e t := by
  obtain hend | ⟨hops, hread⟩ := h
  · exact endsEarly_pair (hi.endsEarly_operands hend) (hj.endsEarly_operands hend)
  · exact endsEarly_pair (hi.endsEarly_rest hops (run_bind_error hread)) (hj.endsEarly_rest hops (run_bind_error hread))

end

section
variable (src dst : Operand)

theorem execWithOperands_cmp : ExecWithOperands (.cmp src dst) .word src dst (compareRest .word aluCmp) := fun _ => rfl
theorem execWithOperands_bit : ExecWithOperands (.bit src dst) .word src dst (compareRest .word aluBit) := fun _ => rfl
theorem execWithOperands_cmpb : ExecWithOperands (.cmpb src dst) .byte src dst (compareRest .byte aluCmp) := fun _ => rfl
theorem execWithOperands_bitb : ExecWithOperands (.bitb src dst) .byte src dst (compareRest .byte aluBit) := fun _ => rfl

end

theorem aluCmp_codes {w : Nat} (x y : BitVec w) (k : Cc) : (aluCmp w k x y).2 = differenceCodes x y :=
  congrArg Prod.snd (aluCmp_eq x y k)

/-- The codes of BIT and BITB keep C (R361, R362). -/
theorem aluBit_codes {w : Nat} {k : Cc} {c : Bool} (x y : BitVec w) (h : k.c = c) :
    (aluBit w k x y).2 = codes (x &&& y) false c := by
  rw [← h]
  rfl

/-- Settles O31: the codes are `aluCmp_codes` and `aluBit_codes` at each size. -/
theorem compareInstructions : Obligations.CompareInstructions := by
  intro src dst s s1 t p x y e
  refine ⟨fun hops hread => ⟨?_, ?_⟩, fun hops hread => ⟨?_, ?_⟩, ?_, ?_⟩
  · exact compareDouble_next (execWithOperands_cmp src dst) hops hread fun _ => aluCmp_codes x y t.cc
  · exact compareDouble_next (execWithOperands_bit src dst) hops hread (aluBit_codes x y)
  · exact compareDouble_next (execWithOperands_cmpb src dst) hops hread fun _ => aluCmp_codes _ _ t.cc
  · exact compareDouble_next (execWithOperands_bitb src dst) hops hread (aluBit_codes _ _)
  · exact compareDouble_endsEarly (execWithOperands_cmp src dst) (execWithOperands_bit src dst)
  · exact compareDouble_endsEarly (execWithOperands_cmpb src dst) (execWithOperands_bitb src dst)

/-! ## Instructions that move -/

/-- What `moveDouble` does with its operands at word size. -/
def moveRest (x : Word) (p : Place) : M Unit := do
  let k ← look State.cc
  let wrotePs ← writePlace .word p x
  setCc wrotePs (Cc.of x false k.c)

/-- What `moveByte` does with its operands. -/
def moveByteRest (x : Word) (p : Place) : M Unit := do
  let k ← look State.cc
  let wrotePs ← writeByteExtended p (x.extractLsb' 0 8)
  setCc wrotePs (Cc.of (x.extractLsb' 0 8) false k.c)

theorem execWithOperands_mov (src dst : Operand) : ExecWithOperands (.mov src dst) .word src dst moveRest := fun _ => rfl

theorem execWithOperands_movb (src dst : Operand) : ExecWithOperands (.movb src dst) .byte src dst moveByteRest :=
  fun _ => rfl

section
variable {sz : Size} {src dst : Operand} {x : Word} {s s1 t : State} {p : Place} {b : Bool} {e : Exit}

/-- The destination's place comes from its field, evaluated last. -/
theorem DoubleOperands.place (h : DoubleOperands sz src dst s x p t) : ∃ u, place sz dst u = .ok p t := by
  by_cases hm : src.mode = .register
  · obtain ⟨hplace, -⟩ := (doubleOperands_register hm).1 h
    exact ⟨s, hplace⟩
  · obtain ⟨u, -, hplace⟩ := (doubleOperands_memory hm).1 h
    exact ⟨u, hplace⟩

theorem DoubleOperands.place_register (h : DoubleOperands sz src dst s x p t) (hm : dst.mode = .register) :
    p = .reg dst.reg := by
  obtain ⟨u, hplace⟩ := h.place
  rw [Machine.place_register sz u hm] at hplace
  cases hplace
  rfl

/-- In memory MOVB writes one byte (R352). -/
theorem DoubleOperands.writeByteExtended (h : DoubleOperands .byte src dst s x p s1) (hm : dst.mode ≠ .register) (v : Byte) :
    writeByteExtended p v = writePlace .byte p (lowByte v) := by
  obtain ⟨u, hplace⟩ := h.place
  exact writeByteExtended_memory hm hplace v

theorem movb_next (hops : DoubleOperands .byte src dst s x p s1)
    (hwrite : writeByteExtended p (x.extractLsb' 0 8) s1 = .ok b t) :
    exec (.movb src dst) s = .next (t.finish b (codes (x.extractLsb' 0 8) false (s.ps.getLsbD 0))) := by
  rw [← hops.ps, ← cc_c]
  exact (execWithOperands_movb src dst).next hops ((run_look_bind ..).trans (run_bind_ok hwrite))

theorem mov_next (hops : DoubleOperands .word src dst s x p s1) (hwrite : writePlace .word p x s1 = .ok b t) :
    exec (.mov src dst) s = .next (t.finish b (codes x false (s.ps.getLsbD 0))) := by
  rw [← hops.ps, ← cc_c]
  exact (execWithOperands_mov src dst).next hops ((run_look_bind ..).trans (run_bind_ok hwrite))

end

/-- Settles O32: `mov_next` and `movb_next`, with the write of MOVB by the destination's mode. -/
theorem moveInstructions : Obligations.MoveInstructions := by
  intro src dst s s1 t p x b e
  refine ⟨mov_next, fun hops hm hwrite => ?_, fun hops hm => ?_, ?_, ?_⟩
  · rw [← hops.writeByteExtended hm] at hwrite
    exact movb_next hops hwrite
  · obtain rfl := hops.place_register hm
    exact movb_next hops rfl
  · rintro (hend | ⟨hops, hwrite⟩)
    · exact (execWithOperands_mov src dst).endsEarly_operands hend
    · exact (execWithOperands_mov src dst).endsEarly_rest hops ((run_look_bind ..).trans (run_bind_error hwrite))
  · rintro (hend | ⟨hops, hm, hwrite⟩)
    · exact (execWithOperands_movb src dst).endsEarly_operands hend
    · rw [← hops.writeByteExtended hm] at hwrite
      exact (execWithOperands_movb src dst).endsEarly_rest hops ((run_look_bind ..).trans (run_bind_error hwrite))

end Sys2Proof.Machine
end

section
/-! PROOFS. The frame of a two-operand instruction that stores to memory (40 R263, R264; 42 R351 to R367; 20_memory R101,
R151). -/

namespace Sys2Proof.Machine

/-! ## Before the store -/

section
variable {sz : Size} {src dst : Operand} {s s1 u t : State} {x : Word} {p : Place} {first second : Reg → Prop}

theorem Unstored.trans (h : Unstored first s u) (h' : Unstored second u t) :
    Unstored (fun r => first r ∨ second r) s t where
  mem := h'.mem.trans h.mem
  undisturbed := h'.undisturbed
  regs := fun r hr => (h'.regs r fun h2 => hr (.inr h2)).trans (h.regs r fun h1 => hr (.inl h1))
  ps := h'.ps.trans h.ps
  sys := h'.sys.trans h.sys
  fpu := h'.fpu.trans h.fpu
  mmu := by rw [h'.mmu, h.mmu]
  phase := h'.phase.trans h.phase
  plat := h'.plat.trans h.plat

/-- The registers that the addresses of the two operands may change. -/
def OperandsChange (src dst : Operand) (r : Reg) : Prop := AddressChanges src r ∨ AddressChanges dst r

theorem unstored_readOp (hs : s.Undisturbed) (h : readOp sz src s = .ok x t) : Unstored (AddressChanges src) s t := by
  obtain ⟨p, u, hplace, hread⟩ := bind_eq_ok h
  exact (unstored_place hs hplace).read (by decide) hread

/-- Evaluating both operands stores nothing. -/
theorem DoubleOperands.unstored (h : DoubleOperands sz src dst s x p s1) (hs : s.Undisturbed) :
    Unstored (OperandsChange src dst) s s1 := by
  by_cases hm : src.mode = .register
  · obtain ⟨hplace, -⟩ := (doubleOperands_register hm).1 h
    exact (unstored_place hs hplace).mono fun _ => .inr
  · obtain ⟨u, hread, hplace⟩ := (doubleOperands_memory hm).1 h
    have hsource := unstored_readOp hs hread
    exact hsource.trans (unstored_place hsource.undisturbed hplace)

end

/-! ## Reading what will be written -/

section
variable {s u : State} {sz : Size} {sp : Space} {m : BitVec 2} {va : Word} {pa : PAddr}

/-- A page that can be written can be read for it, which does not set W (20_memory R137, R138). -/
theorem translate_modify_of_write (h : translate sp m va .write s = .ok pa u) : translate sp m va .modify s = .ok pa s := by
  obtain ⟨hoff, rfl, -⟩ | ⟨i, hon, hm, hi, hchecks, rfl, -⟩ := translate_ok_cases h
  · exact translate_off sp m va .modify hoff
  · exact translate_granted (acc := .modify) hon hm hi hchecks

/-- A read of storage that the platform does not abort succeeds and uses up the answer of its cycle (20_memory R110). -/
theorem physReadWord_storage (hd : s.deviceAt pa = .storage) (habort : (s.busAnswer pa).abort = false) :
    ∃ w t, physReadWord pa s = .ok w t ∧ t.answers = s.answered.answers := by
  unfold physReadWord
  rw [hd]
  dsimp only
  rw [habort]
  refine ⟨_, _, rfl, ?_⟩
  split <;> rfl

theorem physRead_storage (sz : Size) (hd : s.deviceAt pa = .storage) (habort : (s.busAnswer pa).abort = false) :
    ∃ x t, physRead sz pa s = .ok x t ∧ t.answers = s.answered.answers := by
  obtain ⟨w, t, hread, hanswers⟩ := physReadWord_storage hd habort
  cases sz <;> exact ⟨_, t, run_bind_ok hread, hanswers⟩

/-- An operand that could be written is read, and is where it was: its next cycle has the answer after. -/
theorem StorageAt.readPlace_modify (h : StorageAt (.mem sp va) pa u) (haligned : sz = .byte ∨ va.getLsbD 0 = false)
    (hnext : (u.answered.busAnswer pa).abort = false) :
    ∃ y t, readPlace sz (.mem sp va) .modify u = .ok y t ∧ StorageAt (.mem sp va) pa t := by
  obtain ⟨v, htranslate⟩ := target_mem h.target
  obtain ⟨y, t, hphys, hanswers⟩ := physRead_storage sz h.device h.answers
  have hread : readPlace sz (.mem sp va) .modify u = .ok y t :=
    (memRead_of_translate haligned (translate_modify_of_write htranslate)).trans hphys
  obtain ⟨n, -, ht⟩ := readPlace_once (by decide) hread
  have hps : t.ps = u.ps := by rw [ht]
  have hmmu : t.mmu = u.mmu := by rw [ht]
  have hplat : t.plat = u.plat := by rw [ht]
  refine ⟨y, t, hread, target_congr (by rw [State.curMode, State.curMode, hps]) hmmu h.target, ?_, ?_⟩
  · have hdevice := h.device
    unfold State.deviceAt at hdevice ⊢
    rwa [hplat]
  · rwa [busAnswer_congr (s := u.answered) pa hplat hanswers]

end

/-! ## The store -/

section
variable {i : Instr} {sz : Size} {src dst : Operand} {x y : Word} {r : Word × Cc} {s s1 s2 : State} {p : Place}

theorem ModifiesDouble.execStores (h : ModifiesDouble i sz src dst x y (s.ps.getLsbD 0) r)
    (hops : DoubleOperands sz src dst s x p s1) (hread : readPlace sz p .modify s1 = .ok y s2) (hst : Storable sz p s2) :
    ExecStores i s sz p s2 := by
  obtain ⟨w, hw⟩ := hst r.1
  exact ⟨_, ⟨_, _, w, hw, rfl⟩, h.next hops hread hw⟩

theorem execStores_mov (hops : DoubleOperands .word src dst s x p s1) (hst : Storable .word p s1) :
    ExecStores (.mov src dst) s .word p s1 := by
  obtain ⟨w, hw⟩ := hst x
  exact ⟨_, ⟨_, _, w, hw, rfl⟩, mov_next hops hw⟩

theorem execStores_movb {sp : Space} {va : Word} (hops : DoubleOperands .byte src dst s x (.mem sp va) s1)
    (hst : Storable .byte (.mem sp va) s1) : ExecStores (.movb src dst) s .byte (.mem sp va) s1 := by
  obtain ⟨w, hw⟩ := hst (lowByte (x.extractLsb' 0 8))
  exact ⟨_, ⟨_, _, w, hw, rfl⟩, movb_next hops hw⟩

/-- The two-operand instructions that store: the moves, and those that change their destination. -/
theorem moves_or_modifiesDouble (x y : Word) (c : Bool)
    (hi : sz = .word ∧ i ∈ [.add src dst, .sub src dst, .bic src dst, .bis src dst, .mov src dst] ∨
      sz = .word ∧ src.mode = .register ∧ i = .xor src.reg dst ∨
      sz = .byte ∧ i ∈ [.bicb src dst, .bisb src dst, .movb src dst]) :
    (sz = .word ∧ i = .mov src dst) ∨ (sz = .byte ∧ i = .movb src dst) ∨
      ∃ r, ModifiesDouble i sz src dst x y c r := by
  obtain ⟨rfl, hi⟩ | ⟨rfl, hm, rfl⟩ | ⟨rfl, hi⟩ := hi
  · have hi' : i ∈ (binaryWordTable src dst x y c).map (·.1) ++ [.mov src dst] := hi
    obtain htable | hmov := List.mem_append.1 hi'
    · obtain ⟨row, hrow, rfl⟩ := List.mem_map.1 htable
      exact .inr (.inr ⟨_, modifiesDouble_binaryWordTable row hrow⟩)
    · exact .inl ⟨rfl, List.mem_singleton.1 hmov⟩
  · obtain ⟨m, g⟩ := src
    cases (show m = .register from hm)
    exact .inr (.inr ⟨_, modifiesDouble_xor g⟩)
  · have hi' : i ∈ (binaryByteTable src dst (x.extractLsb' 0 8) (y.extractLsb' 0 8) c).map (·.1) ++ [.movb src dst] := hi
    obtain htable | hmovb := List.mem_append.1 hi'
    · obtain ⟨row, hrow, rfl⟩ := List.mem_map.1 htable
      exact .inr (.inr ⟨_, modifiesDouble_binaryByteTable row hrow⟩)
    · exact .inr (.inl ⟨rfl, List.mem_singleton.1 hmovb⟩)

end

/-- Settles O33: the instruction is one store, after the operands or after the destination was read too. -/
theorem binaryMemoryFrame : Obligations.BinaryMemoryFrame := by
  intro src dst s s1 t p x pa sz i _ hi hops htarget hd haligned habort1 habort2 hquiet hexec
  cases p with
  | reg r => cases htarget
  | mem sp va =>
    have hs1 : Unstored (OperandsChange src dst) s s1 := hops.unstored hquiet
    have hat1 : StorageAt (.mem sp va) pa s1 := ⟨htarget, hd, habort1⟩
    have heven : sz = .byte ∨ va.getLsbD 0 = false := by
      cases sz with
      | byte => exact .inl rfl
      | word => exact .inr (haligned sp va rfl rfl)
    have hst1 : Storable sz (.mem sp va) s1 := hat1.storable heven
    obtain ⟨y, s2, hread, hat2⟩ := hat1.readPlace_modify heven habort2
    have hs2 : Unstored (OperandsChange src dst) s s2 := hs1.read (by decide) hread
    suffices hstores : ∃ u, Unstored (OperandsChange src dst) s u ∧ StorageAt (.mem sp va) pa u ∧
        ExecStores i s sz (.mem sp va) u by
      obtain ⟨u, hu, hat, hstores⟩ := hstores
      obtain ⟨hbytes, hregs, hspecials⟩ := hstores.frame hu hat hexec
      refine ⟨hbytes, fun r hpc hsrc hdst => hregs r fun hr => ?_, hspecials⟩
      exact hr.elim (fun h => h.elim hpc hsrc) fun h => h.elim hpc hdst
    obtain ⟨rfl, rfl⟩ | ⟨rfl, rfl⟩ | ⟨r, hmodifies⟩ := moves_or_modifiesDouble x y (s.ps.getLsbD 0) hi
    · exact ⟨s1, hs1, hat1, execStores_mov hops hst1⟩
    · exact ⟨s1, hs1, hat1, execStores_movb hops hst1⟩
    · exact ⟨s2, hs2, hat2, hmodifies.execStores hops hread (hat2.storable heven)⟩

end Sys2Proof.Machine
end

section
/-! PROOFS. MUL and DIV: the register pair, the product, the quotient and the remainder (42 R357, R358; 92 D24, D25). -/

namespace Sys2Proof.Machine

/-! ## Register pairs -/

/-- Of two writes to a register the second stands. -/
theorem setReg_setReg (s : State) (r : Reg) (v v' : Word) : (s.setReg r v).setReg r v' = s.setReg r v' := by
  have hgpr (n : Fin 6) : (s.setGprN n v).setGprN n v' = s.setGprN n v' :=
    congrArg (fun gpr => { s with regs := { s.regs with gpr := gpr } }) (Vector.set_set ..)
  cases r with
  | r0 => exact hgpr 0
  | r1 => exact hgpr 1
  | r2 => exact hgpr 2
  | r3 => exact hgpr 3
  | r4 => exact hgpr 4
  | r5 => exact hgpr 5
  | sp =>
    simp only [State.setReg, State.curMode, State.setStackPtr_ps]
    unfold State.setStackPtr
    split <;> (try split) <;> rfl
  | pc => rfl

/-- The high word goes to the register and the low word to the next, which for an odd register is the same (R357, R360). -/
theorem setPair_eq_putPair (s : State) (r : Reg) (v : BitVec 32) :
    s.setPair r v = s.putPair r (v.extractLsb' 16 16) (v.extractLsb' 0 16) := by
  cases r with
  | r0 | r2 | r4 | sp => rfl
  | r1 | r3 | r5 | pc => exact setReg_setReg s _ _ _

theorem setPair_append (s : State) (r : Reg) (hi lo : Word) : s.setPair r (hi ++ lo) = s.putPair r hi lo := by
  rw [setPair_eq_putPair, BitVec.extractLsb'_append_eq_left, BitVec.extractLsb'_append_eq_right]

theorem oddReg_of_odd {r : Reg} (h : r ∈ [Reg.r1, Reg.r3, Reg.r5, Reg.pc]) : oddReg r = r := by
  revert r
  decide

theorem oddReg_of_even {r : Reg} (h : r ∈ [Reg.r0, Reg.r2, Reg.r4, Reg.sp]) : oddReg r ≠ r := by
  revert r
  decide

/-! ## MUL -/

theorem mulResult_codes (a b : Word) : (mulResult a b).2 = ⟨decide (a.toInt * b.toInt < 0), decide (a.toInt * b.toInt = 0),
    false, decide (a.toInt * b.toInt < -32768 ∨ 32767 < a.toInt * b.toInt)⟩ := by
  rw [Bool.decide_or]
  rfl

/-! ## DIV -/

/-- Quotient and remainder are determined: the remainder is smaller than the divisor and has the sign of the dividend. -/
theorem tdiv_tmod_of_remainder {n q m d : Int} (hn : n = q * d + m) (hm : m.natAbs < d.natAbs) (hpos : 0 ≤ n → 0 ≤ m)
    (hneg : n ≤ 0 → m ≤ 0) : n.tdiv d = q ∧ n.tmod d = m := by
  have hd : d ≠ 0 := by omega
  have hsum : m + d * q = n := by rw [hn, Int.mul_comm, Int.add_comm]
  obtain h | h := Int.le_total 0 n
  · exact (Int.tdiv_tmod_unique h hd).2 ⟨hsum, hpos h, by have := hpos h; omega⟩
  · exact (Int.tdiv_tmod_unique' h hd).2 ⟨hsum, by have := hneg h; omega, hneg h⟩

theorem divResult_zero (n : BitVec 32) : divResult n 0#16 = .byZero := rfl

theorem divResult_of_remainder {n : BitVec 32} {d : Word} {q m : Int} (hn : n.toInt = q * d.toInt + m)
    (hm : m.natAbs < d.toInt.natAbs) (hpos : 0 ≤ n.toInt → 0 ≤ m) (hneg : n.toInt ≤ 0 → m ≤ 0) :
    divResult n d = if q < -32768 ∨ 32767 < q then .overflow else .quotient q m := by
  obtain ⟨hq, hr⟩ := tdiv_tmod_of_remainder hn hm hpos hneg
  have hd : d.toInt ≠ 0 := by omega
  rw [divResult, if_neg hd, hq, hr]
  rfl

section
variable {r : Reg} {src : Operand} {s s1 : State} {d : Word}

/-- With an odd register number the result and the codes are five free values (R358, 93 U4, U5). -/
theorem divide_odd (hr : oddReg r = r) (hread : readOp .word src s = .ok d s1) :
    ∃ v k, divide r src s = .ok () ((State.setReg { s1 with draws := s1.draws + 5 } r v).withCc k) := by
  refine ⟨Config.freeWord s1.draws, ⟨Config.freeBit (s1.draws + 1), Config.freeBit (s1.draws + 2),
    Config.freeBit (s1.draws + 3), Config.freeBit (s1.draws + 4)⟩, ?_⟩
  rw [divide, run_bind_ok hread, if_pos hr]
  rfl

/-- What DIV of an even pair does with its three ends. -/
def divideEnd (r : Reg) (s : State) : DivResult → State
  | .quotient q m => (s.putPair r (BitVec.ofInt 16 q) (BitVec.ofInt 16 m)).withCc ⟨decide (q < 0), decide (q = 0), false, false⟩
  | .byZero => State.withCc { s with draws := s.draws + 2 } ⟨Config.freeBit s.draws, Config.freeBit (s.draws + 1), true, true⟩
  | .overflow => State.withCc { s with draws := s.draws + 2 } ⟨Config.freeBit s.draws, Config.freeBit (s.draws + 1), true, false⟩

theorem divide_even (hr : oddReg r ≠ r) (hread : readOp .word src s = .ok d s1) :
    divide r src s = .ok () (divideEnd r s1 (divResult (s1.reg r ++ s1.reg (oddReg r)) d)) := by
  rw [divide, run_bind_ok hread, if_neg hr, run_look_bind, State.pair]
  cases divResult (s1.reg r ++ s1.reg (oddReg r)) d with
  | quotient q m => rw [divideEnd, ← setPair_append]; rfl
  | byZero => rfl
  | overflow => rfl

end

end Sys2Proof.Machine

/-! ## The statements. Their names are those of the instructions' bodies in `Machine`, so they stand outside it. -/

namespace Sys2Proof

open Machine

/-- Settles O34: the product goes to the pair by `setPair_eq_putPair`, with `mulResult_codes`. -/
theorem multiply : Obligations.Multiply := by
  intro r src s s1
  refine ⟨fun e hread => endsEarly_of_body rfl (run_bind_error hread), fun v hread => ?_⟩
  dsimp only
  rw [← mulResult_codes, ← setPair_eq_putPair]
  exact complete_ok (run_bind_ok hread)

/-- Settles O35: an odd register is `divide_odd`; an even pair is `divide_even`, at each end of `divResult`. -/
theorem divide : Obligations.Divide := by
  intro r src s s1
  refine ⟨fun e hread => endsEarly_of_body rfl (run_bind_error hread), fun d hread => ⟨fun hodd => ?_, fun heven => ?_⟩⟩
  · obtain ⟨v, k, hrun⟩ := divide_odd (oddReg_of_odd hodd) hread
    exact ⟨v, k, complete_ok hrun⟩
  have hexec : exec (.div r src) s = .next (divideEnd r s1 (divResult (s1.reg r ++ s1.reg (oddReg r)) d)) :=
    complete_ok (divide_even (oddReg_of_even heven) hread)
  refine ⟨?_, ?_⟩
  · rintro rfl
    rw [divResult_zero] at hexec
    exact ⟨_, _, hexec⟩
  · rintro n q m rfl hn hm hpos hneg
    rw [divResult_of_remainder hn hm hpos hneg] at hexec
    refine ⟨fun hover => ?_, fun hlow hhigh => ?_⟩
    · rw [if_pos hover] at hexec
      exact ⟨_, _, hexec⟩
    · rwa [if_neg (by omega)] at hexec

end Sys2Proof
end

section
/-! PROOFS. ASH and ASHC: the shifted value, V and C (42 R359, R360; 92 D26). -/

namespace Sys2Proof.Machine

/-! ## Bits of a number -/

section
variable {w : Nat}

/-- Bit `i` of the word that stores a number. -/
theorem getLsbD_ofInt {i : Nat} (p : Int) (hi : i < w) : (BitVec.ofInt w p).getLsbD i = decide (p / 2 ^ i % 2 = 1) := by
  have hword : ∃ q : Int, p = 2 ^ i * (2 * q) + (BitVec.ofInt w p).toNat := by
    obtain ⟨j, rfl⟩ := Nat.exists_eq_add_of_lt hi
    refine ⟨2 ^ j * (p / 2 ^ (i + j + 1)), ?_⟩
    have hnonneg : 0 ≤ p % 2 ^ (i + j + 1) := Int.emod_nonneg p (by positivity)
    rw [BitVec.toNat_ofInt, Nat.cast_pow, Nat.cast_ofNat, Int.toNat_of_nonneg hnonneg]
    conv_lhs => rw [← Int.mul_ediv_add_emod p (2 ^ (i + j + 1))]
    ring
  obtain ⟨q, hp⟩ := hword
  have hdiv : p / 2 ^ i = 2 * q + (((BitVec.ofInt w p).toNat / 2 ^ i : Nat) : Int) := by
    conv_lhs => rw [hp]
    rw [Int.mul_add_ediv_left _ _ (by positivity)]
    push_cast
    rfl
  rw [hdiv, BitVec.getLsbD, Nat.testBit_eq_decide_div_mod_eq, decide_eq_decide]
  omega

/-- The sign of the word one bit longer is the last bit shifted out to the left. -/
theorem msb_ofInt_succ (p : Int) : (BitVec.ofInt (w + 1) p).msb = decide (p / 2 ^ w % 2 = 1) := by
  rw [BitVec.msb_eq_getLsbD_last]
  exact getLsbD_ofInt p w.lt_succ_self

/-- Shifting a number to the right divides it, rounding down. -/
theorem shiftRight_eq_div (n : Int) (k : Nat) : n >>> k = n / 2 ^ k := by
  rw [Int.shiftRight_eq_div_pow, Nat.cast_pow, Nat.cast_ofNat]

variable (x : BitVec w)

theorem sshiftRight_eq_ofInt (k : Nat) : x.sshiftRight k = BitVec.ofInt w (x.toInt / 2 ^ k) :=
  congrArg (BitVec.ofInt w) (shiftRight_eq_div x.toInt k)

/-- A shift to the right always fits. -/
theorem toInt_sshiftRight_eq_div (k : Nat) : (x.sshiftRight k).toInt = x.toInt / 2 ^ k := by
  rw [BitVec.toInt_sshiftRight, shiftRight_eq_div]

/-- The last bit shifted out to the right. -/
theorem getLsbD_zero_sshiftRight (hw : 0 < w) (k : Nat) :
    (x.sshiftRight k).getLsbD 0 = decide (x.toInt / 2 ^ k % 2 = 1) := by
  rw [sshiftRight_eq_ofInt, getLsbD_ofInt _ hw, pow_zero, Int.ediv_one]

/-! ## The three directions -/

theorem shifted_zero : shifted x 0 = (x, codes x false false) := by
  simp [shifted]

theorem shifted_left {n : Int} (hn : 0 < n) : shifted x n = (BitVec.ofInt w (x.toInt * 2 ^ n.toNat),
    codes (BitVec.ofInt w (x.toInt * 2 ^ n.toNat))
      (decide ((BitVec.ofInt w (x.toInt * 2 ^ n.toNat)).toInt ≠ x.toInt * 2 ^ n.toNat))
      (BitVec.ofInt (w + 1) (x.toInt * 2 ^ n.toNat)).msb) := by
  rw [msb_ofInt_succ]
  simp only [shifted, if_pos hn.le, if_neg hn.ne', if_pos hn]

theorem shifted_right (hw : 0 < w) {n : Int} (hn : n < 0) : shifted x n = (x.sshiftRight (-n).toNat,
    codes (x.sshiftRight (-n).toNat) false ((x.sshiftRight ((-n).toNat - 1)).getLsbD 0)) := by
  have hlast : (-n).toNat - 1 = (-n - 1).toNat := by omega
  simp only [shifted, if_neg hn.not_ge, if_neg hn.ne, if_neg hn.not_gt]
  rw [← sshiftRight_eq_ofInt, toInt_sshiftRight_eq_div, hlast, getLsbD_zero_sshiftRight x hw,
    decide_eq_false (not_not_intro rfl)]

/-- The result and the codes of a shift are those of the rules, for a register and for a pair. -/
theorem shiftResult_eq_shifted (hw : 0 < w) (count : BitVec 6) : shiftResult x count = shifted x count.toInt := by
  unfold shiftResult
  obtain hneg | hzero | hpos := lt_trichotomy count.toInt 0
  · rw [if_neg hneg.ne, if_neg hneg.not_gt, shifted_right x hw hneg]
    rfl
  · rw [if_pos hzero, hzero, shifted_zero]
    rfl
  · rw [if_neg hpos.ne', if_pos hpos, shifted_left x hpos]
    rfl

end

/-- Settles O36: both shifts are `shiftResult_eq_shifted`, of the register and of the pair. -/
theorem arithmeticShifts : Obligations.ArithmeticShifts := by
  intro r src s s1
  refine ⟨fun e hread => endsEarly_pair (endsEarly_of_body rfl (run_bind_error hread))
    (endsEarly_of_body rfl (run_bind_error hread)), fun v hread => ?_⟩
  dsimp only
  rw [← shiftResult_eq_shifted _ (by decide), ← shiftResult_eq_shifted _ (by decide), ← setPair_eq_putPair]
  exact ⟨complete_ok (run_bind_ok hread), complete_ok (run_bind_ok hread)⟩

end Sys2Proof.Machine
end

section
/-! PROOFS. Branches and SOB: the target, and when it becomes the PC (43 R401 to R416, R423; 30_encoding R216, R217). -/

namespace Sys2Proof.Machine

/-! ## Targets -/

theorem two_mul_setWidth (n : BitVec 6) : 2#16 * n.setWidth 16 = BitVec.ofNat 16 (2 * n.toNat) := by
  rw [BitVec.ofNat_mul, BitVec.ofNat_toNat]

theorem branchTarget_eq_ofInt (pc : Word) (o : BitVec 8) :
    branchTarget pc o = BitVec.ofInt 16 (pc.toNat + 2 * o.toInt) := by
  rw [BitVec.ofInt_add, BitVec.ofInt_mul, BitVec.ofInt_natCast, BitVec.ofNat_toNat, BitVec.setWidth_eq]
  rfl

theorem loopTarget_eq_ofInt (pc : Word) (n : BitVec 6) :
    pc - 2#16 * n.setWidth 16 = BitVec.ofInt 16 (pc.toNat - 2 * n.toNat) := by
  have htwice : BitVec.ofInt 16 (2 * n.toNat) = 2#16 * n.setWidth 16 := by
    rw [two_mul_setWidth, ← BitVec.ofInt_natCast, Nat.cast_mul, Nat.cast_ofNat]
  rw [Int.sub_eq_add_neg, BitVec.ofInt_add, BitVec.ofInt_neg, htwice, BitVec.ofInt_natCast, BitVec.ofNat_toNat,
    BitVec.setWidth_eq, BitVec.sub_eq_add_neg]

/-! ## Running them -/

theorem cc_eq_bits (s : State) : s.cc = ⟨s.ps.getLsbD 3, s.ps.getLsbD 2, s.ps.getLsbD 1, s.ps.getLsbD 0⟩ := by
  simp [State.cc, Cc.ofBits]

/-- The instruction is a branch that the codes `k` make when `b` (R401). -/
def Branches (i : Instr) (o : BitVec 8) (k : Cc) (b : Bool) : Prop :=
  ∃ taken, (∀ s, exec i s = complete (branchIf taken o) s) ∧ taken k = b

/-- It jumps to its target or does nothing. -/
theorem Branches.next {i : Instr} {o : BitVec 8} {s : State} {b : Bool}
    (h : Branches i o ⟨s.ps.getLsbD 3, s.ps.getLsbD 2, s.ps.getLsbD 1, s.ps.getLsbD 0⟩ b) :
    exec i s = .next (if b then s.jump (BitVec.ofInt 16 (s.regs.pc.toNat + 2 * o.toInt)) else s) := by
  obtain ⟨taken, hexec, rfl⟩ := h
  rw [hexec, ← cc_eq_bits, ← branchTarget_eq_ofInt]
  rfl

/-- Each branch is made under its condition (R402 to R416). -/
theorem branches_branchTable (o : BitVec 8) (n z v c : Bool) :
    ∀ row ∈ branchTable o n z v c, Branches row.1 o ⟨n, z, v, c⟩ row.2 := by
  have hge : (!(n ^^ v)) = (n == v) := Bool.not_not _
  have hgt : (!(z || (n ^^ v))) = (!z && n == v) := (Bool.not_or _ _).trans (congrArg (!z && ·) hge)
  have hhi : (!c && !z) = !(c || z) := (Bool.not_or c z).symm
  unfold branchTable
  simp only [List.forall_mem_cons]
  exact ⟨⟨_, fun _ => rfl, rfl⟩, ⟨_, fun _ => rfl, rfl⟩, ⟨_, fun _ => rfl, rfl⟩, ⟨_, fun _ => rfl, rfl⟩,
    ⟨_, fun _ => rfl, rfl⟩, ⟨_, fun _ => rfl, rfl⟩, ⟨_, fun _ => rfl, rfl⟩, ⟨_, fun _ => rfl, rfl⟩,
    ⟨_, fun _ => rfl, rfl⟩, ⟨_, fun _ => rfl, rfl⟩, ⟨_, fun _ => rfl, rfl⟩, ⟨_, fun _ => rfl, hge⟩,
    ⟨_, fun _ => rfl, rfl⟩, ⟨_, fun _ => rfl, hgt⟩, ⟨_, fun _ => rfl, rfl⟩, ⟨_, fun _ => rfl, hhi⟩,
    ⟨_, fun _ => rfl, rfl⟩, fun _ h => absurd h List.not_mem_nil⟩

/-- SOB decrements the register, then jumps back unless it is 0 (R423). -/
theorem sob_next (r : Reg) (n : BitVec 6) (s : State) : exec (.sob r n) s = .next (
    let t := s.setReg r (s.reg r - 1#16)
    if t.reg r = 0#16 then t else t.jump (BitVec.ofInt 16 (t.regs.pc.toNat - 2 * n.toNat))) := by
  dsimp only
  rw [← loopTarget_eq_ofInt]
  rfl

/-- Settles O37: each row of the table is `Branches`, SOB is `sob_next`. -/
theorem branchesAndLoops : Obligations.BranchesAndLoops := by
  intro o r n s
  exact ⟨fun row hrow => (branches_branchTable o _ _ _ _ row hrow).next, sob_next r n s⟩

end Sys2Proof.Machine
end

section
/-! PROOFS. JMP, JSR, RTS and MARK (43 R420, R421, R422, R438; 60 R615). -/

namespace Sys2Proof.Machine

section
variable {r : Reg} {dst : Operand} {s s1 u : State} {sp : Space} {a v : Word} {b : Bool} {e : Exit}

/-! ## JMP and JSR -/

theorem exec_jmp_register (hm : dst.mode = .register) : exec (.jmp dst) s = complete (raise .illegalInstruction) s :=
  congrArg (complete · s) (if_pos hm)

theorem exec_jsr_register (hm : dst.mode = .register) : exec (.jsr r dst) s = complete (raise .illegalInstruction) s :=
  congrArg (complete · s) (if_pos hm)

/-- The second half of JSR: the push, the kernel stack check, the link and the jump (R421). -/
def linkAndJump (r : Reg) (a : Word) : M Unit := do
  let link ← look fun s => s.reg r
  let _ ← push link
  let sp ← look fun s => s.stackPtr s.curMode
  stackCheck sp
  update fun s => s.setReg r s.regs.pc
  update fun s => s.jump a

theorem exec_jmp_memory (hm : dst.mode ≠ .register) :
    exec (.jmp dst) s = complete (effectiveAddress dst 2 >>= fun x => update fun s => s.jump x.2) s :=
  congrArg (complete · s) (if_neg hm)

theorem exec_jsr_memory (hm : dst.mode ≠ .register) :
    exec (.jsr r dst) s = complete (effectiveAddress dst 2 >>= fun x => linkAndJump r x.2) s :=
  congrArg (complete · s) (if_neg hm)

/-- The kernel stack check as an expression of the pending request (40 R261). -/
theorem run_stackCheck_eq (va : Word) (s : State) : stackCheck va s = .ok () { s with flow := { s.flow with
    pendYellow := s.flow.pendYellow || (decide (s.curMode = kernel) && decide (va < 0o400#16)) } } :=
  (run_checkStackMode .sp va s).trans (congrArg (EStateM.Result.ok ()) (stackChecked_eq s .sp va))

theorem linkAndJump_run (hpush : push (s.reg r) s = .ok b u) : linkAndJump r a s =
    .ok () (State.setReg (State.setReg { u with flow := { u.flow with
      pendYellow := u.flow.pendYellow || (decide (u.curMode = kernel) && decide (u.reg .sp < 0o400#16)) } }
      r u.regs.pc) .pc a) := by
  rw [linkAndJump, run_look_bind, run_bind_ok hpush, run_look_bind, run_bind_ok (run_stackCheck_eq _ u)]
  rfl

/-! ## MARK -/

/-- The state in which MARK pops R5. -/
def State.marked (s : State) (count : BitVec 6) : State :=
  (s.setReg .sp (s.regs.pc + BitVec.ofNat 16 (2 * count.toNat))).setReg .pc (s.reg .r5)

/-- MARK pops R5 after it set the SP and the PC (R438). -/
theorem mark_run (count : BitVec 6) (s : State) :
    mark count s = (pop >>= fun v => update fun s => s.setReg .r5 v) (s.marked count) := by
  have hr5 (v : Word) : (s.setReg .sp v).reg .r5 = s.reg .r5 := s.reg_setReg .sp .r5 v
  unfold State.marked
  rw [← two_mul_setWidth, ← hr5 (s.regs.pc + 2#16 * count.setWidth 16)]
  rfl

end

/-- Settles O38: on a register JMP and JSR raise; else each body goes on, or ends where its address, its push or its pop
does. -/
theorem jumpsCallsReturns : Obligations.JumpsCallsReturns := by
  intro r dst n s
  refine ⟨fun hm => ⟨exec_jmp_register hm, exec_jsr_register hm⟩,
    fun hm sp a s1 haddress => ⟨?_, fun b u hpush => ?_⟩, fun v s1 hpop => complete_ok (run_bind_ok hpop),
    fun v s1 hpop => ?_, fun e u => ⟨fun hm haddress => ?_, fun hm sp a s1 haddress hpush => ?_,
    fun hpop => endsEarly_of_body rfl (run_bind_error hpop), fun hpop => ?_⟩⟩
  · exact (exec_jmp_memory hm).trans (complete_ok (run_bind_ok haddress))
  · exact (exec_jsr_memory hm).trans (complete_ok ((run_bind_ok haddress).trans (linkAndJump_run hpush)))
  · exact complete_ok ((mark_run n s).trans (run_bind_ok hpop))
  · exact endsEarly_pair (endsEarly_of_body (exec_jmp_memory hm) (run_bind_error haddress))
      (endsEarly_of_body (exec_jsr_memory hm) (run_bind_error haddress))
  · exact endsEarly_of_body (exec_jsr_memory hm) ((run_bind_ok haddress).trans
      ((run_look_bind ..).trans (run_bind_error hpush)))
  · exact endsEarly_of_body rfl ((mark_run n s).trans (run_bind_error hpop))

end Sys2Proof.Machine
end

section
/-! PROOFS. The PS words that trap sequences, returns and CSM make, field by field (10_state R31, R36, R37; 43 R440). -/

namespace Sys2Proof.Machine

theorem mergeBits_allOnes (old v : Word) : mergeBits old 0o177777#16 v = v := by
  have hkeep : old &&& ~~~0o177777#16 = 0#16 := BitVec.and_zero
  unfold mergeBits
  rw [hkeep, BitVec.zero_or]
  exact BitVec.and_allOnes

/-- A field that the mask covers is replaced. -/
theorem extractLsb'_mergeBits_of_masked {old mask v : Word} {start len : Nat}
    (h : mask.extractLsb' start len = BitVec.allOnes len) :
    (mergeBits old mask v).extractLsb' start len = v.extractLsb' start len := by
  refine BitVec.eq_of_getLsbD_eq fun i hi => ?_
  have hm : mask.getLsbD (start + i) = true := by
    simpa [BitVec.getLsbD_extractLsb', hi] using congrArg (fun x => BitVec.getLsbD x i) h
  simp [BitVec.getLsbD_extractLsb', getLsbD_mergeBits, hm]

theorem extractLsb'_previousMode (m : BitVec 2) : ((m.setWidth 16 : Word) <<< 12).extractLsb' 12 2 = m := by
  revert m
  decide

theorem extractLsb'_ushiftRight_two (ps : Word) : (ps >>> 2).extractLsb' 12 2 = ps.extractLsb' 14 2 := by
  refine BitVec.eq_of_getLsbD_eq fun i hi => ?_
  rw [BitVec.getLsbD_extractLsb', BitVec.getLsbD_extractLsb', BitVec.getLsbD_ushiftRight, ← Nat.add_assoc]

/-- The PS of a trap sequence: bits 10:9 are zero, the previous mode is the interrupted one (R36). -/
theorem vectorPs_eq_append (w old : Word) : vectorPs w old =
    w.extractLsb' 14 2 ++ old.extractLsb' 14 2 ++ w.extractLsb' 11 1 ++ 0#2 ++ w.extractLsb' 0 9 := by
  have hfields (x : Word) : x.extractLsb' 14 2 ++ x.extractLsb' 12 2 ++ x.extractLsb' 11 1 ++ x.extractLsb' 9 2 ++
      x.extractLsb' 0 9 = x := by
    simp only [BitVec.extractLsb'_append_extractLsb'_eq_extractLsb']
    exact BitVec.extractLsb'_eq_self
  rw [← hfields (vectorPs w old)]
  unfold vectorPs
  rw [extractLsb'_mergeBits_of_unmasked (start := 14) rfl, extractLsb'_mergeBits_of_masked (start := 14) rfl,
    extractLsb'_mergeBits_of_masked (start := 12) rfl, extractLsb'_previousMode,
    extractLsb'_mergeBits_of_unmasked (start := 11) rfl, extractLsb'_mergeBits_of_masked (start := 11) rfl,
    extractLsb'_mergeBits_of_unmasked (start := 9) rfl, extractLsb'_mergeBits_of_unmasked (start := 9) rfl,
    extractLsb'_mergeBits_of_unmasked (start := 0) rfl, extractLsb'_mergeBits_of_masked (start := 0) rfl]
  rfl

theorem extractLsb'_vectorPs_mode (w old : Word) : (vectorPs w old).extractLsb' 14 2 = w.extractLsb' 14 2 :=
  (extractLsb'_mergeBits_of_unmasked rfl).trans (extractLsb'_mergeBits_of_masked rfl)

/-- The PS that CSM makes: supervisor mode, the old mode as previous, T clear (R440). -/
theorem supervisorPs_eq_append (ps : Word) : supervisorPs ps =
    1#2 ++ ps.extractLsb' 14 2 ++ ps.extractLsb' 5 7 ++ 0#1 ++ ps.extractLsb' 0 4 := by
  have hfields (x : Word) : x.extractLsb' 14 2 ++ x.extractLsb' 12 2 ++ x.extractLsb' 5 7 ++ x.extractLsb' 4 1 ++
      x.extractLsb' 0 4 = x := by
    simp only [BitVec.extractLsb'_append_extractLsb'_eq_extractLsb']
    exact BitVec.extractLsb'_eq_self
  rw [← hfields (supervisorPs ps)]
  unfold supervisorPs
  rw [extractLsb'_mergeBits_of_masked (start := 14) rfl,
    extractLsb'_mergeBits_of_unmasked (start := 12) rfl, extractLsb'_mergeBits_of_masked (start := 12) rfl,
    extractLsb'_ushiftRight_two,
    extractLsb'_mergeBits_of_unmasked (start := 5) rfl, extractLsb'_mergeBits_of_unmasked (start := 5) rfl,
    extractLsb'_mergeBits_of_masked (start := 4) rfl,
    extractLsb'_mergeBits_of_unmasked (start := 0) rfl, extractLsb'_mergeBits_of_unmasked (start := 0) rfl]
  rfl

theorem extractLsb'_supervisorPs_mode (ps : Word) : (supervisorPs ps).extractLsb' 14 2 = supervisor :=
  extractLsb'_mergeBits_of_masked rfl

/-- Every return loads T (R37). -/
theorem getLsbD_restoredPs_trace (m : BitVec 2) (old w : Word) : (restoredPs m old w).getLsbD 4 = w.getLsbD 4 := by
  unfold restoredPs
  split
  · rw [BitVec.getLsbD_and]
    exact Bool.and_true _
  · rw [getLsbD_mergeBits]
    exact if_pos rfl

end Sys2Proof.Machine
end

section
/-! PROOFS. A trap sequence in plain memory (60 R620, R621, R640; 10_state R36), and the instructions that only trap
(43 R430 to R434; 30_encoding R220). -/

namespace Sys2Proof.Machine

/-! ## Writing a stack pointer -/

section
variable {s t : State} (m : BitVec 2) (v v' : Word)

theorem setStackPtr_regs_congr (h : t.regs = s.regs) : (t.setStackPtr m v).regs = (s.setStackPtr m v).regs := by
  unfold State.setStackPtr
  split <;> (try split) <;> rw [h]

/-- The stack pointers and the PC are written independently. -/
theorem setStackPtr_regs_jump (h : t.regs = { s.regs with pc := v' }) :
    (t.setStackPtr m v).regs = { (s.setStackPtr m v).regs with pc := v' } := by
  unfold State.setStackPtr
  split <;> (try split) <;> rw [h]

/-- Of two writes to a stack pointer the second stands. -/
theorem setStackPtr_setStackPtr : (s.setStackPtr m v).setStackPtr m v' = s.setStackPtr m v' := by
  unfold State.setStackPtr
  split <;> (try split) <;> rfl

end

/-! ## The vector -/

section
variable {s : State} {v : Word}

/-- PC and PS come from the vector. -/
def State.vectored (s : State) (v oldPs : Word) : State :=
  { s.jump (s.word v) with ps := vectorPs (s.word (v + 2#16)) oldPs }

/-- A plain word reads the same from every state with this storage. -/
theorem State.PlainAt.read_congr (h : s.PlainAt v) (t : State) (hmmr0 : t.mmu.mmr0 = s.mmu.mmr0) (hplat : t.plat = s.plat)
    (hanswers : t.answers = s.answers) (hmem : t.mem = s.mem) (sp : Space) (m : BitVec 2) (acc : Access) :
    memRead sp m .word v acc t = .ok (s.word v) t := by
  rw [← State.word_congr hmem v]
  exact (h.congr hmmr0 hplat hanswers).read sp m acc

theorem loadVector_plain (hpc : s.PlainAt v) (hps : s.PlainAt (v + 2#16)) (oldPs : Word) :
    loadVector v oldPs s = .ok () (s.vectored v oldPs) := by
  let s1 := s.writePs 0o140000#16 0#16
  have hreadPc : memRead .d kernel .word v .read s1 = .ok (s.word v) s1 := hpc.read_congr s1 rfl rfl rfl rfl ..
  have hreadPs : memRead .d kernel .word (v + 2#16) .read (s1.jump (s.word v)) =
      .ok (s.word (v + 2#16)) (s1.jump (s.word v)) := hps.read_congr (s1.jump (s.word v)) rfl rfl rfl rfl ..
  have hload : loadVector v oldPs s =
      .ok () ((s1.jump (s.word v)).writePs 0o177777#16 (vectorPs (s.word (v + 2#16)) oldPs)) :=
    (run_bind_ok hreadPc).trans (run_bind_ok hreadPs)
  rw [hload, State.writePs, mergeBits_allOnes]
  rfl

/-! ## The pushes -/

/-- One push of a trap sequence: the SP goes down, a kernel push is checked, the word is stored. -/
def State.trapPushed (s : State) (kind : TrapKind) (m : BitVec 2) (v : Word) : State :=
  { s with
    regs := (s.setStackPtr m (s.stackPtr m - 2#16)).regs
    mem := s.mem.writeWord (s.stackPtr m - 2#16).toNat v
    flow := { s.flow with
      pendYellow := s.flow.pendYellow || decide (kind = .other ∧ m = kernel ∧ s.stackPtr m - 2#16 < 0o400#16) } }

/-- The check of a push requests the yellow stack trap or nothing. -/
theorem requestYellow_if (c : Prop) [Decidable c] (s : State) : (if c then s.requestYellow else s) =
    { s with flow := { s.flow with pendYellow := s.flow.pendYellow || decide c } } := by
  by_cases h : c <;> simp [h, State.requestYellow]

theorem trapPush_plain (kind : TrapKind) {m : BitVec 2} (h : s.PlainAt (s.stackPtr m - 2#16)) (v : Word) :
    trapPush kind m v s = .ok () (s.trapPushed kind m v) := by
  have hsp : (s.setStackPtr m (s.stackPtr m - 2#16)).stackPtr m = s.stackPtr m - 2#16 := s.stackPtr_setStackPtr m _
  unfold trapPush
  rw [run_update_bind, run_look_bind, run_update_bind, hsp, requestYellow_if, setStackPtr_eq]
  refine run_bind_ok (State.PlainAt.write ?_ ..)
  exact h.congr rfl rfl rfl

theorem trapPushed_stackPtr (kind : TrapKind) (m : BitVec 2) (v : Word) :
    (s.trapPushed kind m v).stackPtr m = s.stackPtr m - 2#16 := State.stackPtr_setStackPtr ..

theorem State.PlainAt.trapPushed {a : Word} (h : s.PlainAt a) (kind : TrapKind) (m : BitVec 2) (v : Word) :
    (s.trapPushed kind m v).PlainAt a :=
  h.congr rfl rfl rfl

theorem sub_two_sub_two (x : Word) : x - 2#16 - 2#16 = x - 4#16 := by
  rw [BitVec.sub_sub]
  rfl

theorem pushOld_plain (kind : TrapKind) {m : BitVec 2} (h2 : s.PlainAt (s.stackPtr m - 2#16))
    (h4 : s.PlainAt (s.stackPtr m - 4#16)) (oldPs oldPc : Word) :
    pushOld kind m oldPs oldPc s = .ok () ((s.trapPushed kind m oldPs).trapPushed kind m oldPc) := by
  have hnext : (s.trapPushed kind m oldPs).PlainAt ((s.trapPushed kind m oldPs).stackPtr m - 2#16) := by
    rw [trapPushed_stackPtr, sub_two_sub_two]
    exact h4.trapPushed kind m oldPs
  exact (run_bind_ok (trapPush_plain kind h2 oldPs)).trans (trapPush_plain kind hnext oldPc)

end

/-! ## The sequence -/

section
variable (s : State) (m : BitVec 2) (v oldPs oldPc : Word)

/-- What both pushes leave (R620, R640). -/
theorem trapPushed_trapPushed : (s.trapPushed .other m oldPs).trapPushed .other m oldPc =
    { s with
      regs := (s.setStackPtr m (s.stackPtr m - 4#16)).regs
      mem := (s.mem.writeWord (s.stackPtr m - 2#16).toNat oldPs).writeWord (s.stackPtr m - 4#16).toNat oldPc
      flow := { s.flow with
        pendYellow := s.flow.pendYellow || (decide (m = kernel) &&
          (decide (s.stackPtr m - 2#16 < 0o400#16) || decide (s.stackPtr m - 4#16 < 0o400#16))) } } := by
  have hregs : (State.setStackPtr (s.trapPushed .other m oldPs) m (s.stackPtr m - 4#16)).regs =
      (s.setStackPtr m (s.stackPtr m - 4#16)).regs := by
    rw [← setStackPtr_setStackPtr (s := s) m (s.stackPtr m - 2#16)]
    exact setStackPtr_regs_congr m _ rfl
  have hyellow (b : Bool) (x y : Word) : (b || decide (TrapKind.other = .other ∧ m = kernel ∧ x < 0o400#16) ||
      decide (TrapKind.other = .other ∧ m = kernel ∧ y < 0o400#16)) =
      (b || (decide (m = kernel) && (decide (x < 0o400#16) || decide (y < 0o400#16)))) := by
    by_cases h : m = kernel <;> simp [h, Bool.or_assoc]
  rw [← hyellow, ← hregs, State.trapPushed, trapPushed_stackPtr, sub_two_sub_two]
  rfl

end

/-- A trap sequence in plain memory runs to its end (R620). -/
theorem trapSequence_of_trapReady {s : State} {v : Word} (h : s.TrapReady v) : s.trapSequence v .other = s.afterTrap v := by
  obtain ⟨hhalt, hpc, hps, hfirst, hsecond⟩ := h
  let s0 : State := { s with phase := .service, flow := { s.flow with stale := none } }
  let s1 : State := s0.vectored v s.ps
  have hload : loadVector v s.ps s0 = .ok () s1 :=
    loadVector_plain (s := s0) (hpc.congr rfl rfl rfl) (hps.congr rfl rfl rfl) s.ps
  have hmode : s1.curMode = s.vectorMode v := extractLsb'_vectorPs_mode _ _
  have hpush := pushOld_plain (s := s1) (m := s.vectorMode v) .other (hfirst.congr rfl rfl rfl) (hsecond.congr rfl rfl rfl)
    s.ps s.regs.pc
  have hrun : s.trapSequence v .other =
      (s1.trapPushed .other (s.vectorMode v) s.ps).trapPushed .other (s.vectorMode v) s.regs.pc := by
    unfold State.trapSequence
    rw [if_neg (by rw [hhalt]; exact Bool.false_ne_true)]
    dsimp only
    rw [hload]
    dsimp only
    rw [hmode, hpush]
  have hregs (x : Word) : (s1.setStackPtr (s.vectorMode v) x).regs =
      { (s.setStackPtr (s.vectorMode v) x).regs with pc := s.word v } := setStackPtr_regs_jump _ x _ rfl
  rw [State.afterTrap, ← vectorPs_eq_append, setStackPtr_eq, hrun, trapPushed_trapPushed, hregs]
  rfl

/-! ## EMT, TRAP, BPT, IOT and reserved codes -/

/-- An instruction that only raises an exception without a bit of its own in CPUERR traps through its vector. -/
theorem raise_next {i : Instr} (v : Event) {s : State} (hexec : exec i s = complete (raise v) s)
    (hbits : v.cpuerrBits = 0#16) (hready : s.TrapReady v.vector) : exec i s = .next ((s.raised 0#16).afterTrap v.vector) := by
  obtain ⟨hhalt, hpc, hps, hfirst, hsecond⟩ := hready
  have hraised : (s.raised 0#16).TrapReady v.vector :=
    ⟨hhalt, hpc.congr rfl rfl rfl, hps.congr rfl rfl rfl, hfirst.congr rfl rfl rfl, hsecond.congr rfl rfl rfl⟩
  rw [hexec, ← trapSequence_of_trapReady hraised, ← hbits]
  rfl

/-- Settles O40: each row raises an exception that `raise_next` takes. -/
theorem trapInstructions : Obligations.TrapInstructions := by
  intro s n w
  simp only [List.forall_mem_cons]
  exact ⟨raise_next (.trapInstruction _) rfl rfl, raise_next (.trapInstruction _) rfl rfl,
    raise_next (.trapInstruction _) rfl rfl, raise_next (.trapInstruction _) rfl rfl,
    raise_next .reservedInstruction rfl rfl, fun _ h => absurd h List.not_mem_nil⟩

end Sys2Proof.Machine
end

section
/-! PROOFS. What MMR1 records does not depend on the registers, the PS or storage (10_state R57). -/

namespace Sys2Proof.Machine

section
variable (r : BitVec 3) (n : BitVec 5) (s : State)

theorem recordMmr1_eq_mmu : recordMmr1 r n s = { s with mmu := (recordMmr1 r n s).mmu } := by
  conv_lhs => rw [recordMmr1_eq]
  rw [recordMmr1_eq]

/-- Three records in a row, as CSM makes them. -/
theorem recordMmr1_thrice_eq_mmu : recordMmr1 r n (recordMmr1 r n (recordMmr1 r n s)) =
    { s with mmu := (recordMmr1 r n (recordMmr1 r n (recordMmr1 r n s))).mmu } := by
  have hdrop (u : State) (mmu : Mmu) : { recordMmr1 r n u with mmu := mmu } = { u with mmu := mmu } := by
    rw [recordMmr1_eq_mmu]
  exact (recordMmr1_eq_mmu ..).trans ((hdrop _ _).trans (hdrop _ _))

theorem recordMmr1_mmu_congr {t : State} (h : t.mmu = s.mmu) : (recordMmr1 r n t).mmu = (recordMmr1 r n s).mmu := by
  unfold recordMmr1 State.frozen
  rw [h]
  split
  · exact h
  · split <;> rfl

theorem recordMmr1_setStackPtr (m : BitVec 2) (v : Word) :
    (recordMmr1 r n s).setStackPtr m v = recordMmr1 r n (s.setStackPtr m v) := by
  have hregs : ((recordMmr1 r n s).setStackPtr m v).regs = (s.setStackPtr m v).regs :=
    setStackPtr_regs_congr m v (recordMmr1_regs r n s)
  have hmmu : (recordMmr1 r n (s.setStackPtr m v)).mmu = (recordMmr1 r n s).mmu :=
    recordMmr1_mmu_congr r n s (s.setStackPtr_mmu m v)
  rw [recordMmr1_eq_mmu r n (s.setStackPtr m v), hmmu, setStackPtr_eq, hregs, recordMmr1_eq_mmu, setStackPtr_eq s]

end

end Sys2Proof.Machine
end

section
/-! PROOFS. RTI and RTT: two pops on one stack, then PC and PS together (43 R436, R437; 10_state R37; 60 R650). -/

namespace Sys2Proof.Machine

section
variable {s : State} {sp : Word}

/-! ## The pops -/

/-- The state after two words were popped from the stack at `sp`. -/
def State.poppedTwo (s : State) (sp : Word) : State :=
  recordMmr1 6#3 2#5 (recordMmr1 6#3 2#5 (s.setReg .sp (sp + 4#16)))

theorem add_two_add_two (x : Word) : x + 2#16 + 2#16 = x + 4#16 := by
  rw [BitVec.add_assoc]
  rfl

/-- Two pops in plain memory. -/
theorem pop_pop_plain (hsp : sp = s.reg .sp) (hpc : s.PlainAt sp) (hps : s.PlainAt (sp + 2#16)) :
    ∃ s1, pop s = .ok (s.word sp) s1 ∧ pop s1 = .ok (s.word (sp + 2#16)) (s.poppedTwo sp) := by
  subst hsp
  let s1 := recordMmr1 6#3 2#5 (s.setReg .sp (s.reg .sp + 2#16))
  have hfirst : pop s = .ok (s.word (s.reg .sp)) s1 := pop_plain hpc
  have hreg : s1.stackPtr s1.curMode = s.reg .sp + 2#16 := by
    show s1.reg .sp = _
    rw [recordMmr1_reg, State.reg_setReg, if_pos rfl]
  have hword : s1.word (s.reg .sp + 2#16) = s.word (s.reg .sp + 2#16) :=
    State.word_congr (by rw [recordMmr1_mem, State.setReg_mem]) _
  have hplain : s1.PlainAt (s.reg .sp + 2#16) := hps.congr
    (by rw [recordMmr1_mmr0, State.setReg_mmu]) (by rw [recordMmr1_plat, State.setReg_plat])
    (by rw [recordMmr1_answers, State.setReg_answers])
  have hsecond := pop_plain (s := s1) (hreg ▸ hplain)
  refine ⟨s1, hfirst, ?_⟩
  rw [hsecond, hreg, hword, add_two_add_two]
  have hstack : s1.setStackPtr s1.curMode (s.reg .sp + 4#16) = recordMmr1 6#3 2#5 (s.setReg .sp (s.reg .sp + 4#16)) := by
    rw [recordMmr1_setStackPtr, ← setReg_setReg s .sp (s.reg .sp + 2#16) (s.reg .sp + 4#16), recordMmr1_curMode]
    rfl
  rw [hstack]
  rfl

theorem poppedTwo_ps (s : State) (sp : Word) : (s.poppedTwo sp).ps = s.ps := by
  rw [State.poppedTwo, recordMmr1_ps, recordMmr1_ps, State.setReg_ps]

theorem poppedTwo_flow (s : State) (sp : Word) : (s.poppedTwo sp).flow = s.flow := by
  rw [State.poppedTwo, recordMmr1_flow, recordMmr1_flow, State.setReg_flow_of_ne _ _ _ (by decide)]

/-! ## The returns -/

/-- The state after RTT in plain memory. -/
def State.returned (s : State) (sp w : Word) : State :=
  { s.poppedTwo sp with
    ps := restoredPs s.curMode s.ps w
    regs := { (s.poppedTwo sp).regs with pc := s.word sp }
    flow := { s.flow with prefetchFault := true } }

theorem returnFromTrap_plain (hsp : sp = s.reg .sp) (hpc : s.PlainAt sp) (hps : s.PlainAt (sp + 2#16)) :
    returnFromTrap s = .ok () (s.returned sp (s.word (sp + 2#16))) := by
  obtain ⟨s1, hfirst, hsecond⟩ := pop_pop_plain hsp hpc hps
  refine (run_look_bind ..).trans ((run_bind_ok hfirst).trans ((run_bind_ok hsecond).trans ?_))
  rw [run_update, State.writePs, mergeBits_allOnes, poppedTwo_ps, poppedTwo_flow]
  rfl

/-- A pop that raises ends both returns, with neither PC nor PS loaded. -/
theorem returns_endsEarly {e : Exit} {u : State} (h : returnFromTrap s = .error e u) : s.EndsEarly [.rti, .rtt] e u :=
  endsEarly_pair (endsEarly_of_body rfl (run_bind_error h)) (endsEarly_of_body rfl h)

/-- RTI requests the trace trap when the T bit it loaded is set (R436; D28). -/
theorem requestTrace_if (s : State) : (if s.tBit then s.requestTrace else s) =
    { s with flow := { s.flow with pendTrace := s.flow.pendTrace || s.ps.getLsbD 4 } } := by
  by_cases h : s.tBit
  · rw [if_pos h, show s.ps.getLsbD 4 = true from h, Bool.or_true]
    rfl
  · rw [if_neg h, show s.ps.getLsbD 4 = false from Bool.eq_false_of_not_eq_true h, Bool.or_false]

theorem returnInterrupt_of_return {t : State} (h : returnFromTrap s = .ok () t) : returnInterrupt s =
    .ok () { t with flow := { t.flow with pendTrace := t.flow.pendTrace || t.ps.getLsbD 4 } } := by
  rw [← requestTrace_if]
  exact run_bind_ok h

end

/-- Settles O43: both returns are `returnFromTrap_plain`, and RTI's request is T as the stacked PS has it. -/
theorem returnsFromTraps : Obligations.ReturnsFromTraps := by
  intro s
  refine ⟨fun e u => ⟨fun hpc => returns_endsEarly ((run_look_bind ..).trans (run_bind_error hpc)),
    fun v s1 hpc hps => returns_endsEarly ((run_look_bind ..).trans ((run_bind_ok hpc).trans (run_bind_error hps)))⟩, ?_⟩
  rintro sp w hsp hpc hps rfl
  have hreturn := returnFromTrap_plain hsp hpc hps
  refine ⟨complete_ok hreturn, ?_⟩
  rw [← getLsbD_restoredPs_trace s.curMode s.ps]
  exact complete_ok (returnInterrupt_of_return hreturn)

end Sys2Proof.Machine
end

section
/-! PROOFS. CSM: the switch to supervisor mode, the frame on its stack, the new PC (43 R440; 92 D23, D27, D29). -/

namespace Sys2Proof.Machine

section
variable {s : State} {v : Word}

/-! ## Pushes in supervisor mode -/

/-- The state after a push on the supervisor stack in plain memory. -/
def State.supervisorPushed (s : State) (v : Word) : State :=
  { s with
    regs := { s.regs with ssp := s.regs.ssp - 2#16 }
    mmu := (recordMmr1 6#3 (-2#5) s).mmu
    mem := s.mem.writeWord (s.regs.ssp - 2#16).toNat v }

theorem State.PlainAt.supervisorPushed {a : Word} (h : s.PlainAt a) (v : Word) : (s.supervisorPushed v).PlainAt a :=
  h.congr (recordMmr1_mmr0 ..) rfl rfl

theorem push_supervisor (hm : s.curMode = supervisor) (h : s.PlainAt (s.regs.ssp - 2#16)) (v : Word) :
    push v s = .ok false (s.supervisorPushed v) := by
  have hsp : s.stackPtr s.curMode = s.regs.ssp := by rw [hm]; rfl
  rw [push_plain v (hsp ▸ h), hsp, hm, ← recordMmr1_setStackPtr, recordMmr1_eq_mmu, State.setStackPtr, State.putWord]
  rfl

/-- The frame that CSM leaves below the supervisor SP. -/
def State.framed (s : State) (a b c : Word) : State :=
  { s with
    regs := { s.regs with ssp := s.regs.ssp - 6#16 }
    mmu := (recordMmr1 6#3 (-2#5) (recordMmr1 6#3 (-2#5) (recordMmr1 6#3 (-2#5) s))).mmu
    mem := ((s.mem.writeWord (s.regs.ssp - 2#16).toNat a).writeWord (s.regs.ssp - 4#16).toNat b).writeWord
      (s.regs.ssp - 6#16).toNat c }

theorem sub_four_sub_two (x : Word) : x - 4#16 - 2#16 = x - 6#16 := by
  rw [BitVec.sub_sub]
  rfl

theorem supervisorPushed_thrice (s : State) (a b c : Word) :
    ((s.supervisorPushed a).supervisorPushed b).supervisorPushed c = s.framed a b c := by
  have hmmu : (((s.supervisorPushed a).supervisorPushed b).supervisorPushed c).mmu = (s.framed a b c).mmu :=
    recordMmr1_mmu_congr 6#3 (-2#5) _ (recordMmr1_mmu_congr 6#3 (-2#5) _ rfl)
  rw [State.framed, ← sub_four_sub_two, ← sub_two_sub_two]
  exact congrArg (fun mmu : Mmu => { ((s.supervisorPushed a).supervisorPushed b).supervisorPushed c with mmu := mmu }) hmmu

/-! ## The body -/

/-- CSM after its argument is read: the switch (R440). -/
def State.toSupervisor (s : State) : State :=
  { s with
    regs := { s.regs with ssp := s.reg .sp }
    ps := supervisorPs s.ps
    flow := { s.flow with prefetchFault := true } }

/-- CSM after the switch: the frame and the new PC (R440). -/
def enterSupervisor (stacked arg : Word) : M Unit := do
  let _ ← push stacked
  let pc ← look fun s => s.regs.pc
  let _ ← push pc
  let _ ← push arg
  let target ← memRead .i supervisor .word 0o10#16
  update fun s => s.jump target

/-- The frame and the new PC in plain memory. -/
theorem enterSupervisor_plain (hm : s.curMode = supervisor) (h2 : s.PlainAt (s.regs.ssp - 2#16))
    (h4 : s.PlainAt (s.regs.ssp - 4#16)) (h6 : s.PlainAt (s.regs.ssp - 6#16)) (htarget : s.PlainAt 0o10#16)
    (stacked arg : Word) : enterSupervisor stacked arg s = .ok () (State.jump (s.framed stacked s.regs.pc arg)
      (State.word (s.framed stacked s.regs.pc arg) 0o10#16)) := by
  have hfirst : push stacked s = .ok false (s.supervisorPushed stacked) := push_supervisor hm h2 stacked
  rw [← sub_two_sub_two] at h4
  have hsecond := push_supervisor (s := s.supervisorPushed stacked) hm (h4.supervisorPushed stacked) s.regs.pc
  rw [← sub_four_sub_two, ← sub_two_sub_two] at h6
  have hthird := push_supervisor (s := (s.supervisorPushed stacked).supervisorPushed s.regs.pc) hm
    ((h6.supervisorPushed stacked).supervisorPushed s.regs.pc) arg
  rw [supervisorPushed_thrice] at hthird
  have hread : memRead .i supervisor .word 0o10#16 .read (s.framed stacked s.regs.pc arg) =
      .ok (State.word (s.framed stacked s.regs.pc arg) 0o10#16) (s.framed stacked s.regs.pc arg) := by
    rw [← supervisorPushed_thrice]
    exact (((htarget.supervisorPushed stacked).supervisorPushed s.regs.pc).supervisorPushed arg).read ..
  exact (run_bind_ok hfirst).trans ((run_look_bind ..).trans ((run_bind_ok hsecond).trans
    ((run_bind_ok hthird).trans (run_bind_ok hread))))

theorem callSupervisor_disabled {src : Operand} (h : s.curMode = kernel ∨ s.mmu.mmr3.getLsbD 3 = false) :
    callSupervisor src s = .error (.raise .reservedInstruction) s := by
  have hoff : ¬(s.mmu.mmr3.getLsbD 3 && decide (s.curMode ≠ kernel)) = true := by
    rcases h with hkernel | hclear
    · rw [decide_eq_false (not_not_intro hkernel), Bool.and_false]
      exact Bool.false_ne_true
    · rw [hclear, Bool.false_and]
      exact Bool.false_ne_true
  unfold callSupervisor
  rw [run_look_bind, if_neg hoff]
  rfl

section
variable {src : Operand} {s1 : State} {arg : Word} (hm : s.curMode ≠ kernel) (hbit : s.mmu.mmr3.getLsbD 3 = true)
include hm hbit

theorem callSupervisor_error {e : Exit} (hread : readOp .word src s = .error e s1) : callSupervisor src s = .error e s1 := by
  unfold callSupervisor
  rw [run_look_bind, if_pos (by simp [hm, hbit]), run_bind_error hread]

/-- Once the argument is read, CSM is the rest from the switch on. -/
theorem callSupervisor_run (hread : readOp .word src s = .ok arg s1) :
    callSupervisor src s = enterSupervisor (s1.ps &&& 0o177760#16) arg s1.toSupervisor := by
  have hswitch : (s1.setStackPtr supervisor (s1.stackPtr s1.curMode)).writePs 0o177777#16 (supervisorPs s1.ps) =
      s1.toSupervisor := by
    rw [State.writePs, mergeBits_allOnes]
    rfl
  unfold callSupervisor
  rw [run_look_bind, if_pos (by simp [hm, hbit]), run_bind_ok hread, ← hswitch]
  rfl

end

theorem toSupervisor_eq (s : State) : s.toSupervisor = { s with
    regs := { s.regs with ssp := s.reg .sp }
    ps := 1#2 ++ s.ps.extractLsb' 14 2 ++ s.ps.extractLsb' 5 7 ++ 0#1 ++ s.ps.extractLsb' 0 4
    flow := { s.flow with prefetchFault := true } } := by
  rw [State.toSupervisor, supervisorPs_eq_append]

/-- The end of CSM in plain memory, as its rule lists it. -/
theorem framed_toSupervisor_jump (s : State) (arg : Word) :
    let sp := s.reg .sp
    let r3 (u : State) := recordMmr1 6#3 (-2#5) (recordMmr1 6#3 (-2#5) (recordMmr1 6#3 (-2#5) u))
    let t := r3 (((s.putWord (sp - 2#16) (s.ps &&& 0o177760#16)).putWord (sp - 4#16) s.regs.pc).putWord (sp - 6#16) arg)
    State.jump (s.toSupervisor.framed (s.ps &&& 0o177760#16) s.regs.pc arg)
      (State.word (s.toSupervisor.framed (s.ps &&& 0o177760#16) s.regs.pc arg) 0o10#16) = { t with
        regs := { s.regs with ssp := sp - 6#16, pc := t.word 0o10#16 }
        ps := 1#2 ++ s.ps.extractLsb' 14 2 ++ s.ps.extractLsb' 5 7 ++ 0#1 ++ s.ps.extractLsb' 0 4
        flow := { s.flow with prefetchFault := true } } := by
  intro sp r3 t
  let stored := ((s.putWord (sp - 2#16) (s.ps &&& 0o177760#16)).putWord (sp - 4#16) s.regs.pc).putWord (sp - 6#16) arg
  have ht : t = { stored with mmu := (r3 stored).mmu } := recordMmr1_thrice_eq_mmu 6#3 (-2#5) stored
  have hmmu : (r3 s.toSupervisor).mmu = (r3 stored).mmu :=
    recordMmr1_mmu_congr _ _ _ (recordMmr1_mmu_congr _ _ _ (recordMmr1_mmu_congr _ _ _ rfl))
  rw [ht, ← hmmu, ← supervisorPs_eq_append]
  rfl

end

end Sys2Proof.Machine

/-! ## The statement. Its name is that of the instruction's body in `Machine`, so it stands outside it. -/

namespace Sys2Proof

open Machine

/-- Settles O44: disabled, it raises; else it is `enterSupervisor` from `State.toSupervisor`, which runs to its end in plain
memory or ends where a push or the read of the new PC does. -/
theorem callSupervisor : Obligations.CallSupervisor := by
  intro src s
  refine ⟨fun h => complete_raise (callSupervisor_disabled h), ?_, ?_⟩
  · rintro hm hbit arg s1 sp hread rfl h2 h4 h6 htarget
    have hmode : s1.toSupervisor.curMode = supervisor := extractLsb'_supervisorPs_mode _
    have henter := enterSupervisor_plain hmode (h2.congr rfl rfl rfl) (h4.congr rfl rfl rfl) (h6.congr rfl rfl rfl)
      (htarget.congr rfl rfl rfl) (s1.ps &&& 0o177760#16) arg
    exact complete_ok ((callSupervisor_run hm hbit hread).trans (henter.trans
      (congrArg (EStateM.Result.ok ()) (framed_toSupervisor_jump s1 arg))))
  · intro hm hbit e u
    refine ⟨fun hread => endsEarly_of_body rfl (callSupervisor_error hm hbit hread), ?_⟩
    rintro arg s1 t hread ht
    rw [← toSupervisor_eq] at ht
    subst ht
    have hends (h : enterSupervisor (s1.ps &&& 0o177760#16) arg s1.toSupervisor = .error e u) :
        s.EndsEarly [.csm src] e u :=
      endsEarly_of_body rfl ((callSupervisor_run hm hbit hread).trans h)
    refine ⟨fun h1 => hends (run_bind_error h1), fun b1 t1 h1 => ⟨fun h2 => hends ?_, fun b2 t2 h2 => ⟨fun h3 => hends ?_,
      fun b3 t3 h3 htarget => hends ?_⟩⟩⟩
    · exact (run_bind_ok h1).trans ((run_look_bind ..).trans (run_bind_error h2))
    · exact (run_bind_ok h1).trans ((run_look_bind ..).trans ((run_bind_ok h2).trans (run_bind_error h3)))
    · exact (run_bind_ok h1).trans ((run_look_bind ..).trans ((run_bind_ok h2).trans ((run_bind_ok h3).trans
        (run_bind_error htarget))))

end Sys2Proof
end

section
/-! PROOFS. HALT, WAIT, RESET and SPL, and how console ODT prints (44 R460 to R468; 60 R616; 61 R683, R685, R690; 10_state
R93). -/

namespace Sys2Proof.Machine

/-! ## Octal digits (61 R690) -/

theorem octalDigit_toNat (d : BitVec 3) : (octalDigit d).toNat = 0o60 + d.toNat := by
  revert d
  decide

/-- Every character of a printed word is an octal digit. -/
theorem octal6_range (w : Word) : ∀ d ∈ octal6 w, 0o60 ≤ d.toNat ∧ d.toNat ≤ 0o67 := by
  have hdigit (d : BitVec 3) : 0o60 ≤ (octalDigit d).toNat ∧ (octalDigit d).toNat ≤ 0o67 := by
    have := d.isLt
    rw [octalDigit_toNat]
    omega
  simp only [octal6, List.forall_mem_cons]
  exact ⟨hdigit _, hdigit _, hdigit _, hdigit _, hdigit _, hdigit _, fun _ h => absurd h List.not_mem_nil⟩

/-- The six digits are the word in base 8. -/
theorem octal6_value (w : Word) : (octal6 w).foldl (fun n d => n * 8 + (d.toNat - 0o60)) 0 = w.toNat := by
  have := w.isLt
  simp only [octal6, List.foldl_cons, List.foldl_nil, octalDigit_toNat, Nat.add_sub_cancel_left, field_toNat]
  omega

/-! ## HALT -/

section
variable {s : State}

theorem halt_console (hm : s.curMode = kernel) (hoption : s.plat.cfg.haltOption = false) :
    halt s = .ok () s.enterConsole := by
  unfold halt
  rw [run_look_bind, if_pos (by rw [hm, hoption]; rfl)]
  rfl

theorem halt_illegal (h : s.curMode ≠ kernel ∨ s.plat.cfg.haltOption = true) :
    halt s = .error (.raise .illegalHalt) s := by
  have hoff : ¬(decide (s.curMode = kernel) && !s.plat.cfg.haltOption) = true := by
    rcases h with hm | hoption
    · rw [decide_eq_false hm, Bool.false_and]
      exact Bool.false_ne_true
    · rw [hoption, Bool.not_true, Bool.and_false]
      exact Bool.false_ne_true
  unfold halt
  rw [run_look_bind, if_neg hoff]
  rfl

theorem enterConsole_eq (s : State) : s.enterConsole = { s with
    phase := .console .entering
    io := { s.io with
      out := s.io.out ++ [0o15#8, 0o12#8] ++ octal6 s.regs.pc
      gp := s.io.gp ++ [.write 0o234#8] } } := by
  rw [List.append_assoc]
  rfl

/-- An exception that is taken in plain memory: its bits are recorded in CPUERR and its sequence runs (60 R603, R620). -/
theorem takeEvent_of_trapReady (e : Event) (h : s.TrapReady e.vector) :
    s.takeEvent e = (s.raised e.cpuerrBits).afterTrap e.vector := by
  obtain ⟨hhalt, hpc, hps, hfirst, hsecond⟩ := h
  exact trapSequence_of_trapReady (s := s.raised e.cpuerrBits)
    ⟨hhalt, hpc.congr rfl rfl rfl, hps.congr rfl rfl rfl, hfirst.congr rfl rfl rfl, hsecond.congr rfl rfl rfl⟩

/-! ## A step of console ODT -/

/-- On sampled inputs without INIT, a platform with the console line takes one step of the console loop. -/
theorem step_of_console {c : Console} (hinit : s.sampleInputs.lines.init = false)
    (hline : s.sampleInputs.plat.serialLine = true) (hphase : s.sampleInputs.phase = .console c) :
    step s = .next (s.sampleInputs.consoleStep c) := by
  unfold step cycle phaseStep
  rw [if_neg (by rw [hinit]; exact Bool.false_ne_true), hphase]
  exact if_pos hline

theorem consoleStep_ready {ch : Byte} {rest : List Byte} (c : Console) (hout : s.io.out = ch :: rest)
    (hready : s.io.txReady = true) : s.consoleStep c =
      { s with io := { s.io with out := rest, tx := s.io.tx ++ [ch], txReady := false } } := by
  unfold State.consoleStep
  rw [hout]
  exact if_pos hready

theorem consoleStep_busy (c : Console) (hout : s.io.out ≠ []) (hready : s.io.txReady = false) : s.consoleStep c = s := by
  obtain ⟨ch, rest, hcons⟩ := List.exists_cons_of_ne_nil hout
  unfold State.consoleStep
  rw [hcons]
  exact if_neg (by rw [hready]; exact Bool.false_ne_true)

/-- When the PC is printed the character in RBUF is dropped and the prompt is printed (R690). -/
theorem consoleStep_entering (hout : s.io.out = []) : s.consoleStep .entering = { s with
    phase := .console (.read .prompt)
    io := { s.io with rx := none, out := [0o15#8, 0o12#8, 0o100#8] } } := by
  have hprompt : s.takeChar.prompt = { s with
      phase := .console (.read .prompt)
      io := { s.io with rx := none, out := s.io.out ++ [0o15#8, 0o12#8, 0o100#8] } } := rfl
  unfold State.consoleStep
  rw [hout]
  exact hprompt.trans (by rw [hout]; rfl)

/-! ## WAIT, RESET, SPL -/

/-- Outside kernel mode they are no operations. -/
theorem privileged_noOperation (n : BitVec 3) (hm : s.curMode ≠ kernel) :
    exec .wait s = .next s ∧ exec .reset s = .next s ∧ exec (.spl n) s = .next s :=
  ⟨complete_ok (congrArg (EStateM.Result.ok ()) (if_neg hm)), complete_ok (congrArg (EStateM.Result.ok ()) (if_neg hm)),
    complete_ok (congrArg (EStateM.Result.ok ()) (if_neg hm))⟩

theorem wait_kernel (hm : s.curMode = kernel) : exec .wait s = .next { s with phase := .waiting } :=
  complete_ok (congrArg (EStateM.Result.ok ()) (if_pos hm))

theorem reset_kernel (hm : s.curMode = kernel) : exec .reset s = .next { s with
    io := { s.io with gp := s.io.gp ++ [.write 0o014#8, .write 0o214#8] }
    sys := { s.sys with pirq := 0#7 }
    mmu := { s.mmu with mmr0 := s.mmu.mmr0 &&& 0o017776#16, mmr3 := 0#16 }
    flow := { s.flow with prefetchFault := true } } := by
  have hgp : s.io.gp ++ [.write 0o014#8, .write 0o214#8] = s.io.gp ++ [.write 0o014#8] ++ [.write 0o214#8] := by
    rw [List.append_assoc]
    rfl
  rw [hgp]
  exact complete_ok (congrArg (EStateM.Result.ok ()) (if_pos hm))

/-- A merge under the mask of `PS[7:5]` replaces the priority (10_state R31). -/
theorem mergeBits_priority (ps : Word) (n : BitVec 3) :
    mergeBits ps 0o340#16 (n.setWidth 16 <<< 5) = ps.extractLsb' 8 8 ++ n ++ ps.extractLsb' 0 5 := by
  have hfields (x : Word) : x.extractLsb' 8 8 ++ x.extractLsb' 5 3 ++ x.extractLsb' 0 5 = x := by
    simp only [BitVec.extractLsb'_append_extractLsb'_eq_extractLsb']
    exact BitVec.extractLsb'_eq_self
  have hlevel : ((n.setWidth 16 : Word) <<< 5).extractLsb' 5 3 = n := by
    revert n
    decide
  rw [← hfields (mergeBits ps _ _), extractLsb'_mergeBits_of_unmasked (start := 8) rfl,
    extractLsb'_mergeBits_of_masked (start := 5) rfl, hlevel, extractLsb'_mergeBits_of_unmasked (start := 0) rfl]

theorem spl_kernel (n : BitVec 3) (hm : s.curMode = kernel) : exec (.spl n) s = .next { s with
    ps := s.ps.extractLsb' 8 8 ++ n ++ s.ps.extractLsb' 0 5, flow := { s.flow with prefetchFault := true } } := by
  rw [← mergeBits_priority]
  exact complete_ok (congrArg (EStateM.Result.ok ()) (if_pos hm))

end

/-- Settles O45: HALT enters console ODT or raises; a step there is `State.consoleStep`; the others by mode. -/
theorem haltWaitResetSpl : Obligations.HaltWaitResetSpl := by
  intro s n
  refine ⟨fun hm hoption => ⟨octal6 s.regs.pc, ?_, rfl, octal6_range _, octal6_value _⟩, fun h hready => ?_, ?_,
    privileged_noOperation n, fun hm => ⟨wait_kernel hm, reset_kernel hm, spl_kernel n hm⟩⟩
  · rw [← enterConsole_eq]
    exact complete_ok (halt_console hm hoption)
  · exact (complete_raise (halt_illegal h)).trans
      (congrArg Host.Outcome.next (takeEvent_of_trapReady .illegalHalt hready))
  · rintro u c rfl hinit hline hphase
    rw [step_of_console hinit hline hphase]
    refine ⟨fun ch rest hout hready => ?_, fun hout hready => ?_, ?_⟩
    · rw [consoleStep_ready c hout hready]
    · rw [consoleStep_busy c hout hready]
    · rintro hout rfl
      rw [consoleStep_entering hout]

end Sys2Proof.Machine
end

section
/-! PROOFS. The condition-code operators, NOP and MFPT (44 R478, R480; 30_encoding R212). -/

namespace Sys2Proof.Machine

/-! ## Setting and clearing codes -/

section
variable (ps : Word) (mask : BitVec 4)

/-- Only the low four bits of a word are set by a mask of four. -/
theorem or_lowNibble : ps ||| mask.setWidth 16 = ps.extractLsb' 4 12 ++ (ps.extractLsb' 0 4 ||| mask) := by
  refine BitVec.eq_of_getLsbD_eq fun i hi => ?_
  rw [BitVec.getLsbD_append]
  by_cases h : i < 4
  · simp [h, hi]
  · simp [h, show i - 4 < 12 by omega, show 4 + (i - 4) = i by omega, BitVec.getLsbD_of_ge mask i (by omega)]

/-- Nor are any others cleared by one. -/
theorem and_not_lowNibble :
    ps &&& ~~~(mask.setWidth 16) = ps.extractLsb' 4 12 ++ (ps.extractLsb' 0 4 &&& ~~~mask) := by
  refine BitVec.eq_of_getLsbD_eq fun i hi => ?_
  rw [BitVec.getLsbD_append]
  by_cases h : i < 4
  · simp [h, hi]
  · simp [h, hi, show i - 4 < 12 by omega, show 4 + (i - 4) = i by omega, BitVec.getLsbD_of_ge mask i (by omega)]

theorem ccOperator_run (on : Bool) (s : State) : ccOperator on mask s = .ok () { s with ps := s.ps.extractLsb' 4 12 ++
    (if on then s.ps.extractLsb' 0 4 ||| mask else s.ps.extractLsb' 0 4 &&& ~~~mask) } := by
  cases on with
  | true => exact congrArg (fun ps => EStateM.Result.ok () { s with ps := ps }) (or_lowNibble s.ps mask)
  | false => exact congrArg (fun ps => EStateM.Result.ok () { s with ps := ps }) (and_not_lowNibble s.ps mask)

end

/-! ## Which instructions are condition-code operators -/

/-- Every operator that a word decodes to runs its sense and mask, with a name or without (R480). -/
theorem exec_decodeCcop (on : Bool) (mask : BitVec 4) (s : State) :
    exec (decodeCcop on mask) s = complete (ccOperator on mask) s := by
  unfold decodeCcop
  split <;> rfl

/-- So does every one with a name. -/
theorem exec_ccTable {i : Instr} {on : Bool} {mask : BitVec 4} (h : (i, on, mask) ∈ ccTable) (s : State) :
    exec i s = complete (ccOperator on mask) s := by
  have hrows : ∀ row ∈ ccTable, row.1 = decodeCcop row.2.1 row.2.2 := by decide
  obtain rfl : i = decodeCcop on mask := hrows _ h
  exact exec_decodeCcop on mask s

/-- The words `0o000240` to `0o000277` (R212). -/
theorem decode_ccop (fd fl on : Bool) (mask : BitVec 4) :
    decode fd fl (5#11 ++ BitVec.ofBool on ++ mask) = decodeCcop on mask := by
  obtain ⟨hencode, hwf, hfits⟩ := decodeCcop_standsFor (fd := fd) (fl := fl) on mask
  exact decode_eq_of_encode_eq hencode hwf hfits

/-- Settles O46: every operator is `ccOperator`, and NOP is the one that clears no code. -/
theorem codeOperatorsAndNoOperations : Obligations.CodeOperatorsAndNoOperations := by
  intro s fd fl on mask n
  have hrun {i : Instr} (hexec : exec i s = complete (ccOperator on mask) s) : exec i s = .next { s with
      ps := s.ps.extractLsb' 4 12 ++
        (if on then s.ps.extractLsb' 0 4 ||| mask else s.ps.extractLsb' 0 4 &&& ~~~mask) } :=
    hexec.trans (complete_ok (ccOperator_run mask on s))
  refine ⟨?_, hrun rfl, ?_, privileged_noOperation n, decode_eq_of_encode_eq rfl rfl rfl, rfl⟩
  · rintro i (rfl | hrow)
    · rw [decode_ccop]
      exact hrun (exec_decodeCcop on mask s)
    · exact hrun (exec_ccTable hrow s)
  · have hkeep : s.ps &&& ~~~(0#4).setWidth 16 = s.ps := BitVec.and_allOnes
    have hnop : exec .nop s = .next { s with ps := s.ps &&& ~~~(0#4).setWidth 16 } := rfl
    rwa [hkeep] at hnop

end Sys2Proof.Machine
end

section
/-! PROOFS. The PS while a word is written, pushed or popped (10_state R35; 20_memory R110, R122; 43 R400). -/

namespace Sys2Proof.Machine

section
variable {s t : State}

/-- No other register inside the chip holds the PS. -/
theorem writeInt_ps_of_ne {r : IntReg} (h : r ≠ .ps) (mask v : Word) : (s.writeInt r mask v).ps = s.ps := by
  cases r with
  | ps => exact absurd rfl h
  | mmr0 =>
    unfold State.writeInt State.writeMmr0
    dsimp only
    split <;> rfl
  | pirq | cpuerr | hmr | ccr | mmr1 | mmr2 | mmr3 | par | pdr => rfl

theorem writeSerial_ps (r : SerialReg) (mask v : Word) : (s.writeSerial r mask v).ps = s.ps := by
  unfold State.writeSerial
  split
  · split <;> rfl
  · rfl

/-- A word write that did not load `PS[3:0]` left the whole PS (10_state R35). -/
theorem physWrite_word_ps {a : PAddr} {v : Word} (h : physWrite .word a v s = .ok false t) : t.ps = s.ps := by
  unfold physWrite at h
  split at h
  · rename_i r _
    injection h with hloaded hstate
    have hr : r ≠ .ps := by
      rintro rfl
      have hloads : (decide (IntReg.ps = .ps) && (0o177777#16 : Word).getLsbD 0) = false := hloaded
      exact absurd hloads (by decide)
    rw [← hstate]
    exact writeInt_ps_of_ne hr _ _
  · dsimp only at h
    split at h
    · cases h
    · split at h
      · cases h
        exact writeSerial_ps _ _ _
      · cases h
        rfl
      · cases h
        rfl

theorem memWrite_word_ps {sp : Space} {m : BitVec 2} {va v : Word} (h : memWrite sp m .word va v s = .ok false t) :
    t.ps = s.ps := by
  obtain ⟨pa, u, htranslate, hwrite⟩ := memWrite_ok h
  rw [physWrite_word_ps hwrite, translate_ok_mmu htranslate]

/-- So did a push: the SP and MMR1 are not in the PS. -/
theorem push_ps {v : Word} (h : push v s = .ok false t) : t.ps = s.ps := by
  let u := recordMmr1 6#3 (-2#5) (s.setStackPtr s.curMode (s.stackPtr s.curMode - 2#16))
  have hwrite : memWrite .d u.curMode .word (u.stackPtr u.curMode) v u = .ok false t := h
  rw [memWrite_word_ps hwrite, recordMmr1_ps, State.setStackPtr_ps]

/-- A pop never writes the PS. -/
theorem pop_ps {v : Word} (h : pop s = .ok v t) : t.ps = s.ps := by
  unfold pop at h
  rw [run_look_bind, run_look_bind] at h
  obtain ⟨w, u, hread, hrest⟩ := bind_eq_ok h
  cases hrest
  rw [recordMmr1_ps, State.setStackPtr_ps]
  exact (memRead_once (by decide) hread).regs.1

/-- The codes at an instruction's end: C is kept from before a write that left the PS, and another write decides itself. -/
theorem finish_codes_carry {b : Bool} (v : Word) (h : b = false → t.ps = s.ps) :
    t.finish b (Cc.of v false t.cc.c) = t.finish b (codes v false (s.ps.getLsbD 0)) := by
  cases b with
  | true => rfl
  | false =>
    rw [cc_c, h rfl]
    rfl

end

end Sys2Proof.Machine
end

section
/-! PROOFS. MFPI, MFPD, MTPI and MTPD: the operand of the previous mode and the current stack (44 R470 to R473; 40 R268;
20_memory R156; 60 R600). -/

namespace Sys2Proof.Machine

section
variable {i : Instr} {sp sp' : Space} {f : Operand} {s s1 s2 t u : State} {a v : Word} {b : Bool} {e : Exit}

theorem effectiveAddress_ok_ps {n : Nat} (h : effectiveAddress f n s = .ok (sp', a) s1) : s1.ps = s.ps :=
  (effectiveAddress_ok h).1.rest.ps

/-! ## From the previous mode -/

/-- The operand of MFPI and MFPD in previous mode `pm`. -/
def readPrevious (sp : Space) (src : Operand) (pm : BitVec 2) : M Word :=
  if src.mode = .register then look fun s => s.previousReg src.reg
  else do
    let (_, a) ← effectiveAddress src 2
    let cur ← look State.curMode
    memRead (if cur = user ∧ pm = user then .d else sp) pm .word a

/-- The second half of MFPI and MFPD: the push and the codes. -/
def pushAndSetCodes (v : Word) : M Unit := do
  let wrotePs ← push v
  let k ← look State.cc
  setCc wrotePs (Cc.of v false k.c)

theorem moveFromPrevious_run (sp : Space) (src : Operand) (s : State) :
    moveFromPrevious sp src s = (readPrevious sp src s.prevMode >>= pushAndSetCodes) s := rfl

theorem readPrevious_register (sp : Space) (hm : f.mode = .register) :
    readPrevious sp f s.prevMode s = .ok (s.previousReg f.reg) s := congrFun (if_pos hm) s

/-- An operand in memory is read in the previous mode's space; from user to user it is data space (R470, R471). -/
theorem readPrevious_memory (sp : Space) (hm : f.mode ≠ .register) (haddress : effectiveAddress f 2 s = .ok (sp', a) s1) :
    readPrevious sp f s.prevMode s =
      memRead (if s.curMode = user ∧ s.prevMode = user then .d else sp) s.prevMode .word a .read s1 := by
  have hcur : s1.curMode = s.curMode := by
    unfold State.curMode
    rw [effectiveAddress_ok_ps haddress]
  unfold readPrevious
  rw [if_neg hm, run_bind_ok haddress, ← hcur]
  rfl

theorem readPrevious_memory_error (sp : Space) (hm : f.mode ≠ .register) (haddress : effectiveAddress f 2 s = .error e u) :
    readPrevious sp f s.prevMode s = .error e u := by
  unfold readPrevious
  rw [if_neg hm, run_bind_error haddress]

theorem readPrevious_memory_ps {sp'' : Space} {m : BitVec 2} (haddress : effectiveAddress f 2 s = .ok (sp', a) s1)
    (hread : memRead sp'' m .word a .read s1 = .ok v s2) : s2.ps = s.ps :=
  (memRead_once (by decide) hread).regs.1.trans (effectiveAddress_ok_ps haddress)

theorem moveFromPrevious_next (hexec : ∀ s, exec i s = complete (moveFromPrevious sp f) s)
    (hread : readPrevious sp f s.prevMode s = .ok v s1) (hps : s1.ps = s.ps) (hpush : push v s1 = .ok b t) :
    exec i s = .next (t.finish b (codes v false (s.ps.getLsbD 0))) := by
  have hcodes : pushAndSetCodes v s1 = .ok () (t.finish b (Cc.of v false t.cc.c)) := run_bind_ok hpush
  rw [hexec, ← hps, ← finish_codes_carry v (by rintro rfl; exact push_ps hpush)]
  exact complete_ok ((moveFromPrevious_run sp f s).trans ((run_bind_ok hread).trans hcodes))

theorem moveFromPrevious_endsEarly_read (hexec : ∀ s, exec i s = complete (moveFromPrevious sp f) s)
    (hread : readPrevious sp f s.prevMode s = .error e u) : s.EndsEarly [i] e u :=
  endsEarly_of_body (hexec s) ((moveFromPrevious_run sp f s).trans (run_bind_error hread))

theorem moveFromPrevious_endsEarly_push (hexec : ∀ s, exec i s = complete (moveFromPrevious sp f) s)
    (hread : readPrevious sp f s.prevMode s = .ok v s1) (hpush : push v s1 = .error e u) : s.EndsEarly [i] e u :=
  endsEarly_of_body (hexec s) ((moveFromPrevious_run sp f s).trans ((run_bind_ok hread).trans (run_bind_error hpush)))

/-! ## To the previous mode -/

/-- The write of MTPI and MTPD in previous mode `pm`. -/
def writePrevious (sp : Space) (dst : Operand) (pm : BitVec 2) (v : Word) : M Bool :=
  if dst.mode = .register then fun s => .ok false (if dst.reg = .sp then s.setStackPtr pm v else s.setReg dst.reg v)
  else do
    let (_, a) ← effectiveAddress dst 2
    memWrite sp pm .word a v

/-- The second half of MTPI and MTPD: the write and the codes. -/
def storeAndSetCodes (sp : Space) (dst : Operand) (pm : BitVec 2) (v : Word) : M Unit := do
  let wrotePs ← writePrevious sp dst pm v
  let k ← look State.cc
  setCc wrotePs (Cc.of v false k.c)

theorem moveToPrevious_run (sp : Space) (dst : Operand) (s : State) :
    moveToPrevious sp dst s = (pop >>= storeAndSetCodes sp dst s.prevMode) s := rfl

theorem writePrevious_register (sp : Space) (pm : BitVec 2) (v : Word) (s : State) (hm : f.mode = .register) :
    writePrevious sp f pm v s = .ok false (if f.reg = .sp then s.setStackPtr pm v else s.setReg f.reg v) :=
  congrFun (if_pos hm) s

theorem writePrevious_memory (sp : Space) (pm : BitVec 2) (v : Word) (hm : f.mode ≠ .register) :
    writePrevious sp f pm v = effectiveAddress f 2 >>= fun x => memWrite sp pm .word x.2 v := if_neg hm

/-- A write that did not load `PS[3:0]` left the whole PS. -/
theorem writePrevious_ps {pm : BitVec 2} (h : writePrevious sp f pm v s = .ok false t) : t.ps = s.ps := by
  by_cases hm : f.mode = .register
  · rw [writePrevious_register sp pm v s hm] at h
    cases h
    split
    · exact State.setStackPtr_ps ..
    · exact State.setReg_ps ..
  · rw [writePrevious_memory sp pm v hm] at h
    obtain ⟨x, s1, haddress, hwrite⟩ := bind_eq_ok h
    exact (memWrite_word_ps hwrite).trans (effectiveAddress_ok_ps haddress)

theorem moveToPrevious_next (hexec : ∀ s, exec i s = complete (moveToPrevious sp f) s) (hpop : pop s = .ok v s1)
    (hwrite : writePrevious sp f s.prevMode v s1 = .ok b t) :
    exec i s = .next (t.finish b (codes v false (s.ps.getLsbD 0))) := by
  have hcodes : storeAndSetCodes sp f s.prevMode v s1 = .ok () (t.finish b (Cc.of v false t.cc.c)) := run_bind_ok hwrite
  rw [hexec, ← pop_ps hpop, ← finish_codes_carry v (by rintro rfl; exact writePrevious_ps hwrite)]
  exact complete_ok ((moveToPrevious_run sp f s).trans ((run_bind_ok hpop).trans hcodes))

theorem moveToPrevious_endsEarly_pop (hexec : ∀ s, exec i s = complete (moveToPrevious sp f) s)
    (hpop : pop s = .error e u) : s.EndsEarly [i] e u :=
  endsEarly_of_body (hexec s) ((moveToPrevious_run sp f s).trans (run_bind_error hpop))

theorem moveToPrevious_endsEarly_write (hexec : ∀ s, exec i s = complete (moveToPrevious sp f) s) (hpop : pop s = .ok v s1)
    (hwrite : writePrevious sp f s.prevMode v s1 = .error e u) : s.EndsEarly [i] e u :=
  endsEarly_of_body (hexec s) ((moveToPrevious_run sp f s).trans ((run_bind_ok hpop).trans (run_bind_error hwrite)))

end

/-- Settles O47: MFPx is `readPrevious` and a push, MTPx a pop and `writePrevious`, then the codes. -/
theorem previousSpaceMoves : Obligations.PreviousSpaceMoves := by
  intro s f sp get put hinstr
  have hget : ∀ s, exec (get f) s = complete (moveFromPrevious sp f) s := by
    rcases hinstr with ⟨rfl, rfl, -⟩ | ⟨rfl, rfl, -⟩ <;> exact fun _ => rfl
  have hput : ∀ s, exec (put f) s = complete (moveToPrevious sp f) s := by
    rcases hinstr with ⟨rfl, -, rfl⟩ | ⟨rfl, -, rfl⟩ <;> exact fun _ => rfl
  refine ⟨fun hm b t hpush => ?_, fun hm sp' a s1 v s2 b t haddress hread hpush => ?_, fun hm v t hpop => ?_,
    fun hm v s1 sp' a s2 b t hpop haddress hwrite => ?_, fun e u => ⟨fun hm hpush => ?_, fun hm haddress => ?_, ?_,
    moveToPrevious_endsEarly_pop hput, fun hm v s1 hpop => ⟨fun haddress => ?_,
    fun sp' a s2 haddress hwrite => ?_⟩⟩⟩
  · exact moveFromPrevious_next hget (readPrevious_register sp hm) rfl hpush
  · exact moveFromPrevious_next hget ((readPrevious_memory sp hm haddress).trans hread)
      (readPrevious_memory_ps haddress hread) hpush
  · exact moveToPrevious_next hput hpop (writePrevious_register sp s.prevMode v t hm)
  · refine moveToPrevious_next hput hpop ?_
    rw [writePrevious_memory sp s.prevMode v hm]
    exact (run_bind_ok haddress).trans hwrite
  · exact moveFromPrevious_endsEarly_push hget (readPrevious_register sp hm) hpush
  · exact moveFromPrevious_endsEarly_read hget (readPrevious_memory_error sp hm haddress)
  · rintro hm sp' a s1 _ haddress rfl
    rw [← readPrevious_memory sp hm haddress]
    exact ⟨moveFromPrevious_endsEarly_read hget,
      fun v s2 hread hpush => moveFromPrevious_endsEarly_push hget hread hpush⟩
  · refine moveToPrevious_endsEarly_write hput hpop ?_
    rw [writePrevious_memory sp s.prevMode v hm]
    exact run_bind_error haddress
  · refine moveToPrevious_endsEarly_write hput hpop ?_
    rw [writePrevious_memory sp s.prevMode v hm]
    exact (run_bind_ok haddress).trans hwrite

end Sys2Proof.Machine
end

section
/-! PROOFS. Raising a floating exception (45 R530; 92 D39). -/

namespace Sys2Proof.Machine

/-- FER, FEC and FEA are recorded; FID holds back the trap request and nothing else. -/
theorem floatException_eq (s : State) (code : BitVec 4) : s.floatException code = { s with
    fpu := { s.fpu with fps := s.fpu.fps ||| 0o100000#16, fec := code, fea := s.flow.instrAddr }
    flow := { s.flow with pendFp := s.flow.pendFp || !s.fpu.fps.getLsbD 14 } } := by
  unfold State.floatException State.fid
  cases s.fpu.fps.getLsbD 14 with
  | true => simp only [if_true, Bool.not_true, Bool.or_false]
  | false =>
    simp only [Bool.not_false, Bool.or_true]
    rfl

end Sys2Proof.Machine
end

section
/-! PROOFS. Reading consecutive words of plain storage as a pattern (45 R502, R521, R523; 92 D38). -/

namespace Sys2Proof.Machine

/-- The `n` words of storage from an address on, in the order of their addresses. -/
def State.wordsAt (s : State) (a : Word) (n : Nat) : List Word :=
  (List.range n).map fun k => s.word (a + BitVec.ofNat 16 (2 * k))

theorem wordsAt_succ (s : State) (a : Word) (n : Nat) : s.wordsAt a (n + 1) = s.word a :: s.wordsAt (a + 2#16) n := by
  simp only [State.wordsAt, List.range_succ_eq_map, List.map_cons, List.map_map, Nat.mul_zero, BitVec.add_zero, addr_succ,
    Function.comp_def, Nat.succ_eq_add_one]

/-- Reading them gives them and changes nothing. -/
theorem readWords_plain (sp : Space) (n : Nat) (s : State) (a : Word)
    (hplain : ∀ k, k < n → s.PlainAt (a + BitVec.ofNat 16 (2 * k))) : readWords sp n a s = .ok (s.wordsAt a n) s := by
  induction n generalizing a with
  | zero => rfl
  | succ n ih =>
    have hfirst : s.PlainAt a := by simpa using hplain 0 n.succ_pos
    have hrest : readWords sp n (a + 2#16) s = .ok (s.wordsAt (a + 2#16) n) s :=
      ih (a + 2#16) fun k hk => addr_succ a k ▸ hplain (k + 1) (Nat.succ_lt_succ hk)
    unfold readWords
    rw [run_bind_ok (show readPlace .word (.mem sp a) .read s = _ from hfirst.read sp s.curMode .read), run_bind_ok hrest,
      wordsAt_succ]
    rfl

/-- The pattern of an operand of a format at an address. -/
def State.floatOperand (s : State) (a : Word) : FFormat → BitVec 64
  | .f => s.word a ++ s.word (a + 2#16) ++ 0#32
  | .d => s.word a ++ s.word (a + 2#16) ++ s.word (a + 4#16) ++ s.word (a + 6#16)

/-- One word supplies the top of a pattern whose rest is zero. -/
theorem packWords_wordsAt_one (s : State) (a : Word) : packWords (s.wordsAt a 1) = s.word a ++ 0#48 := by
  have htop : packWords (s.wordsAt a 1) = s.word a ++ 0#16 ++ 0#16 ++ 0#16 := by rw [wordsAt_succ]; rfl
  rw [htop, BitVec.append_assoc, BitVec.append_assoc]
  rfl

/-- The words an operand of a format has are its pattern, left-justified. -/
theorem packWords_wordsAt (s : State) (a : Word) (fmt : FFormat) :
    packWords (s.wordsAt a fmt.words) = s.floatOperand a fmt := by
  have hfour : a + 2#16 + 2#16 = a + 4#16 := BitVec.add_assoc a 2#16 2#16
  have hsix : a + 4#16 + 2#16 = a + 6#16 := BitVec.add_assoc a 4#16 2#16
  cases fmt with
  | f =>
    simp only [FFormat.words, wordsAt_succ]
    exact BitVec.append_assoc (x₁ := s.word a ++ s.word (a + 2#16)) (x₂ := 0#16) (x₃ := 0#16)
  | d =>
    simp only [FFormat.words, wordsAt_succ, hfour, hsix]
    rfl

end Sys2Proof.Machine
end

section
/-! PROOFS. A floating source: an accumulator, or the words its mode leads to, checked for the undefined variable (45 R520 to
R524, R531; 92 D38, D40). -/

namespace Sys2Proof.Machine

/-- The accumulator a register field names is the one of its number. -/
theorem accOfReg_eq_some_iff (r : Reg) (n : Fin 6) : accOfReg r = some n ↔ r.bits.toNat = n.val := by
  revert n
  cases r <;> decide

/-- The undefined variable with its trap enabled: FIUV, the sign, and a zero exponent field. -/
theorem undefined_iff (s : State) (v : BitVec 64) : (s.fiuv && isMinusZero v) = true ↔
    s.fpu.fps.getLsbD 11 = true ∧ v.msb = true ∧ v.extractLsb' 55 8 = 0#8 := by
  simp only [State.fiuv, isMinusZero, isFloatZero, exponentField, Bool.and_eq_true, beq_iff_eq, and_comm]

section
variable {s t : State} {f : Operand} {fmt : FFormat} {sp : Space} {a : Word} {v : BitVec 64} {e : Exit}

/-- Evaluating an operand's address leaves the floating-point registers. -/
theorem effectiveAddress_ok_fpu {n : Nat} (h : effectiveAddress f n s = .ok (sp, a) t) : t.fpu = s.fpu := by
  obtain ⟨n, ht⟩ := (effectiveAddress_ok h).1.rest
  rw [ht]

theorem floatPlace_accumulator {n : Fin 6} (fmt : FFormat) (s : State) (hm : f.mode = .register)
    (hn : accOfReg f.reg = some n) : floatPlace f fmt s = .ok (.acc n) s := by
  rw [floatPlace, if_pos hm, hn]
  rfl

theorem floatPlace_missing (fmt : FFormat) (s : State) (hm : f.mode = .register) (hn : accOfReg f.reg = none) :
    floatPlace f fmt s = .error .ended (s.floatException 2#4) := by
  rw [floatPlace, if_pos hm, hn]
  rfl

theorem floatPlace_memory (fmt : FFormat) (s : State) (hm : f.mode ≠ .register) : floatPlace f fmt s =
    (effectiveAddress f (2 * fmt.words) >>= fun x => (pure (.mem x.1 x.2) : M FPlace)) s := by
  rw [floatPlace, if_neg hm]

theorem floatPlace_memory_ok (hm : f.mode ≠ .register) (h : effectiveAddress f (2 * fmt.words) s = .ok (sp, a) t) :
    floatPlace f fmt s = .ok (.mem sp a) t :=
  (floatPlace_memory fmt s hm).trans (run_bind_ok h)

theorem floatPlace_memory_error (hm : f.mode ≠ .register) (h : effectiveAddress f (2 * fmt.words) s = .error e t) :
    floatPlace f fmt s = .error e t :=
  (floatPlace_memory fmt s hm).trans (run_bind_error h)

/-- An operand in plain storage is the words it moves, left-justified. -/
theorem readFloatPlace_plain (f : Operand) (fmt : FFormat) (sp : Space)
    (hplain : ∀ k, k < wordsMoved f fmt.words → s.PlainAt (a + BitVec.ofNat 16 (2 * k))) :
    readFloatPlace f fmt (.mem sp a) s = .ok (packWords (s.wordsAt a (wordsMoved f fmt.words))) s :=
  run_bind_ok (readWords_plain sp _ s a hplain)

theorem checkUndefined_memory (sp : Space) (a : Word) (v : BitVec 64) (s : State) : checkUndefined (.mem sp a) v s =
    if s.fpu.fps.getLsbD 11 = true ∧ v.msb = true ∧ v.extractLsb' 55 8 = 0#8 then .error .ended (s.floatException 12#4)
    else .ok () s := by
  simp only [← undefined_iff]
  unfold checkUndefined
  rw [run_look_bind]
  dsimp only
  split <;> rfl

/-- A source in memory that was read is its pattern, or ends the instruction when that is undefined. -/
theorem readFloatSource_memory (hm : f.mode ≠ .register) (haddress : effectiveAddress f (2 * fmt.words) s = .ok (sp, a) t)
    (hread : readFloatPlace f fmt (.mem sp a) t = .ok v t) : readFloatSource f fmt s =
    if s.fpu.fps.getLsbD 11 = true ∧ v.msb = true ∧ v.extractLsb' 55 8 = 0#8 then .error .ended (t.floatException 12#4)
    else .ok v t := by
  have hcheck := checkUndefined_memory sp a v t
  rw [effectiveAddress_ok_fpu haddress] at hcheck
  refine (run_bind_ok (floatPlace_memory_ok hm haddress)).trans ((run_bind_ok hread).trans ?_)
  by_cases hundefined : s.fpu.fps.getLsbD 11 = true ∧ v.msb = true ∧ v.extractLsb' 55 8 = 0#8
  · rw [if_pos hundefined] at hcheck ⊢
    exact run_bind_error hcheck
  · rw [if_neg hundefined] at hcheck ⊢
    exact run_bind_ok hcheck

/-- The same from plain storage. -/
theorem readFloatSource_plain (hm : f.mode ≠ .register) (haddress : effectiveAddress f (2 * fmt.words) s = .ok (sp, a) t)
    (hplain : ∀ k, k < wordsMoved f fmt.words → t.PlainAt (a + BitVec.ofNat 16 (2 * k)))
    (hv : v = packWords (t.wordsAt a (wordsMoved f fmt.words))) : readFloatSource f fmt s =
    if s.fpu.fps.getLsbD 11 = true ∧ v.msb = true ∧ v.extractLsb' 55 8 = 0#8 then .error .ended (t.floatException 12#4)
    else .ok v t :=
  readFloatSource_memory hm haddress (hv ▸ readFloatPlace_plain f fmt sp hplain)

end

/-- A word that supplies the top of a pattern holds its sign and exponent field. -/
theorem msb_append_zero (w : Word) : (w ++ 0#48).msb = w.msb := BitVec.msb_append

theorem exponent_append_zero (w : Word) : (w ++ 0#48).extractLsb' 55 8 = w.extractLsb' 7 8 :=
  BitVec.extractLsb'_append_eq_of_le (by decide)

/-- Settles O51: a source in memory is `readFloatSource_plain`, at the address `effectiveAddress` computes, of which mode 1,
and mode 2 with the PC, are cases. -/
theorem floatSources : Obligations.FloatSources := by
  intro s f fmt
  refine ⟨floatException_eq s, fun hm n hn => ?_, fun hm hr => ?_, fun hm hr hplain v hv => ?_, ?_,
    fun hm n hn => ?_⟩
  · exact run_bind_ok (floatPlace_accumulator fmt s hm ((accOfReg_eq_some_iff f.reg n).2 hn))
  · have hnone : accOfReg f.reg = none := by rcases hr with h | h <;> rw [h] <;> rfl
    exact run_bind_error (floatPlace_missing fmt s hm hnone)
  · obtain ⟨m, r⟩ := f
    obtain rfl : m = .deferred := hm
    have hmoved : wordsMoved ⟨.deferred, r⟩ fmt.words = fmt.words := if_neg fun h => hr h.1
    have hvalue : v = s.floatOperand (s.reg r) fmt := hv.trans (by cases fmt <;> rfl)
    exact readFloatSource_plain nofun (effectiveAddress_deferred s r _) (hmoved.symm ▸ hplain)
      (by rw [hvalue, hmoved, packWords_wordsAt])
  · rintro rfl hplain
    have hone : wordsMoved ⟨.autoInc, .pc⟩ fmt.words = 1 := rfl
    have hread := readFloatSource_plain (fmt := fmt) (v := s.word s.regs.pc ++ 0#48) (by decide)
      (effectiveAddress_autoInc s .pc _) ?_ ?_
    · rw [msb_append_zero, exponent_append_zero] at hread
      exact hread
    · intro k hk
      obtain rfl : k = 0 := by omega
      exact (show s.PlainAt (s.regs.pc + 0#16) by rwa [BitVec.add_zero]).moved .pc 2
    · rw [hone, packWords_wordsAt_one, word_moved]
      rfl
  · obtain rfl : n = 2 * fmt.words := hn.trans (by cases fmt <;> rfl)
    refine ⟨fun e t h => ?_, fun sp a t h => ⟨floatPlace_memory_ok hm h, fun e u hread => ?_, fun one v hone hplain hv => ?_⟩⟩
    · exact ⟨floatPlace_memory_error hm h, run_bind_error (floatPlace_memory_error hm h)⟩
    · exact (run_bind_ok (floatPlace_memory_ok hm h)).trans (run_bind_error hread)
    · have hmoved : wordsMoved f fmt.words = if one then 1 else fmt.words := by
        simp only [wordsMoved, hone, decide_eq_true_eq]
      have hvalue : v = packWords (t.wordsAt a (wordsMoved f fmt.words)) := by
        rw [hv, hmoved]
        cases one with
        | true => exact (packWords_wordsAt_one t a).symm
        | false =>
          have hoperand : t.floatOperand a fmt = packWords (t.wordsAt a fmt.words) := (packWords_wordsAt t a fmt).symm
          cases fmt <;> exact hoperand
      rw [← hmoved] at hplain
      exact ⟨hvalue ▸ readFloatPlace_plain f fmt sp hplain, readFloatSource_plain hm h hplain hvalue⟩

end Sys2Proof.Machine
end

section
/-! PROOFS. The pattern a rounded result is packed into (45 R501, R508). -/

namespace Sys2Proof.Machine

/-- The exponent field is the low eight bits of the biased exponent. -/
theorem exponent_packFloat (neg : Bool) (biased : Int) (fraction L : Nat) :
    (packFloat neg biased fraction L).extractLsb' 55 8 = BitVec.ofInt 8 biased := by
  unfold packFloat
  rw [BitVec.extractLsb'_append_eq_of_le (by decide)]
  exact BitVec.extractLsb'_append_eq_right

theorem msb_packFloat (neg : Bool) (biased : Int) (fraction L : Nat) : (packFloat neg biased fraction L).msb = neg := by
  unfold packFloat
  rw [BitVec.msb_append, if_neg (by decide), BitVec.msb_append, if_neg (by decide)]
  cases neg <;> rfl

theorem fraction_packFloat (neg : Bool) (biased : Int) (fraction L : Nat) :
    (packFloat neg biased fraction L).extractLsb' 0 55 = BitVec.ofNat 55 ((fraction - 2 ^ (L - 1)) * 2 ^ (56 - L)) :=
  BitVec.extractLsb'_append_eq_right

end Sys2Proof.Machine
end

section
/-! PROOFS. The limits of an arithmetic result, and what storing it leaves (45 R506, R508, R509, R530; 10_state R70; 92 D30,
D34, D39). -/

namespace Sys2Proof.Machine

/-! ## The floating condition codes -/

/-- Setting the floating codes replaces FPS bits 3:0 and nothing else. -/
theorem withFcc_eq (s : State) (k : Cc) :
    s.withFcc k = { s with fpu := { s.fpu with fps := s.fpu.fps.extractLsb' 4 12 ++ k.bits } } :=
  congrArg (fun fps => { s with fpu := { s.fpu with fps := fps } }) (mergeBits_lowNibble s.fpu.fps k.bits)

/-- The top bit of a pattern, as a field. -/
theorem ofBool_msb (v : BitVec 64) : BitVec.ofBool v.msb = v.extractLsb' 63 1 := by
  refine BitVec.eq_of_getLsbD_eq fun i hi => ?_
  obtain rfl : i = 0 := by omega
  simp [BitVec.msb_eq_getLsbD_last]

/-- The codes of a stored pattern, FC clear. -/
theorem floatCc_bits (v : BitVec 64) (fv : Bool) : (floatCc v fv false).bits =
    v.extractLsb' 63 1 ++ BitVec.ofBool (decide (v.extractLsb' 55 8 = 0#8)) ++ BitVec.ofBool fv ++ 0#1 := by
  rw [← ofBool_msb]
  rfl

/-- FER is set above the codes. -/
theorem extractLsb'_setFer (fps : Word) : (fps ||| 0o100000#16).extractLsb' 4 12 = 1#1 ++ fps.extractLsb' 4 11 := by
  have hmask : ∀ i < 12, (0o100000#16 : Word).getLsbD (4 + i) = decide (¬ i < 11) := by decide
  refine BitVec.eq_of_getLsbD_eq fun i hi => ?_
  rw [BitVec.getLsbD_extractLsb', BitVec.getLsbD_or, hmask i hi, BitVec.getLsbD_append, BitVec.getLsbD_extractLsb']
  by_cases h : i < 11
  · simp [h, hi]
  · obtain rfl : i = 11 := by omega
    simp

/-! ## Storing a result -/

section
variable (s : State) (n : Fin 6) (fmt : FFormat) (r : FResult)

/-- Neither the exception nor the codes touch what was stored. -/
theorem storeResult_stored : (s.storeResult n fmt r).fpu.ac = (s.setAcc n fmt r.value).fpu.ac ∧
    (s.storeResult n fmt r).draws = (s.setAcc n fmt r.value).draws := by
  unfold State.storeResult State.raiseCode
  cases r.code with
  | none => exact ⟨rfl, rfl⟩
  | some code =>
    dsimp only
    rw [floatException_eq]
    exact ⟨rfl, rfl⟩

theorem acc_congr {s t : State} (h : t.fpu.ac = s.fpu.ac) (n : Fin 6) (fmt : FFormat) : t.acc n fmt = s.acc n fmt := by
  cases fmt <;> simp only [State.acc, h]

/-- Without an exception: the accumulator and the codes. -/
theorem storeResult_eq_of_none (h : r.code = none) : s.storeResult n fmt r = { s with
    fpu := { s.fpu with ac := (s.storeResult n fmt r).fpu.ac
                        fps := s.fpu.fps.extractLsb' 4 12 ++ (floatCc r.value r.fv false).bits }
    draws := (s.storeResult n fmt r).draws } := by
  obtain ⟨hac, hdraws⟩ := storeResult_stored s n fmt r
  rw [hac, hdraws]
  unfold State.storeResult
  rw [h, State.raiseCode, withFcc_eq, setAcc_eq]

/-- With an exception: the registers of `floatException` and its trap request as well. -/
theorem storeResult_eq_of_some {code : BitVec 4} (h : r.code = some code) : s.storeResult n fmt r = { s with
    fpu := { ac := (s.storeResult n fmt r).fpu.ac, fec := code, fea := s.flow.instrAddr
             fps := 1#1 ++ s.fpu.fps.extractLsb' 4 11 ++ (floatCc r.value r.fv false).bits }
    flow := { s.flow with pendFp := s.flow.pendFp || !s.fpu.fps.getLsbD 14 }
    draws := (s.storeResult n fmt r).draws } := by
  obtain ⟨hac, hdraws⟩ := storeResult_stored s n fmt r
  rw [hac, hdraws, ← extractLsb'_setFer]
  unfold State.storeResult
  rw [h, State.raiseCode, withFcc_eq, floatException_eq, setAcc_eq]

/-- No other accumulator changes. -/
theorem get_ac_storeResult_ne {m : Fin 6} (h : m ≠ n) : (s.storeResult n fmt r).fpu.ac.get m = s.fpu.ac.get m := by
  rw [(storeResult_stored s n fmt r).1]
  cases fmt <;> exact (get_set ..).trans (if_neg h)

end

/-! ## The limits -/

section
variable {x : Exact} (fmt : FFormat) (chop fiv fiu : Bool)

theorem arithResult_zero (h : x.num = 0) : arithResult x fmt chop fiv fiu = ⟨0#64, false, none⟩ := if_pos h

theorem arithResult_nonzero (h : x.num ≠ 0) : arithResult x fmt chop fiv fiu =
    limitResult (roundTo x fmt.fraction chop).biased ((roundTo x fmt.fraction chop).pack fmt.fraction) fiv fiu := if_neg h

end

section
variable {biased : Int} (pattern : BitVec 64) (fiv fiu : Bool)

theorem limitResult_overflow (h : 255 < biased) : limitResult biased pattern fiv fiu =
    if fiv then ⟨pattern, true, some 8#4⟩ else ⟨0#64, true, none⟩ := if_pos h

theorem limitResult_underflow (h : biased < 1) : limitResult biased pattern fiv fiu =
    if fiu then ⟨pattern, false, some 10#4⟩ else ⟨0#64, false, none⟩ :=
  (if_neg (show ¬255 < biased by omega)).trans (if_pos h)

theorem limitResult_between (h1 : 1 ≤ biased) (h2 : biased ≤ 255) : limitResult biased pattern fiv fiu =
    ⟨pattern, false, none⟩ :=
  (if_neg (not_lt.2 h2)).trans (if_neg (not_lt.2 h1))

end

/-- Settles O56: storing is the write of the accumulator, the exception and the codes; the result stored is `limitResult` of the
rounded number. -/
theorem arithmeticLimits : Obligations.ArithmeticLimits := by
  refine ⟨?_, ?_⟩
  · rintro s t n fmt result rfl
    obtain ⟨hac, hdraws⟩ := storeResult_stored s n fmt result
    refine ⟨?_, ?_, fun m hm => get_ac_storeResult_ne s n fmt result hm, ?_⟩
    · rintro rfl
      exact ⟨(acc_congr hac n .d).trans (acc_setAcc_d s n result.value), hdraws.trans (setAcc_draws s n .d _)⟩
    · rintro rfl
      exact ⟨(acc_congr hac n .f).trans (acc_setAcc_f s n result.value), hdraws.trans (setAcc_draws s n .f _)⟩
    · rintro codes rfl
      rw [← floatCc_bits]
      exact ⟨storeResult_eq_of_none s n fmt result, fun code => storeResult_eq_of_some s n fmt result⟩
  · rintro x fmt chop fiv fiu r rfl
    refine ⟨arithResult_zero fmt chop fiv fiu, fun hx h => ?_, fun hx h => ?_, fun hx h1 h2 => ?_,
      exponent_packFloat _ _ _ _, msb_packFloat _ _ _ _⟩
    · rw [arithResult_nonzero fmt chop fiv fiu hx, limitResult_overflow _ fiv fiu h]
    · rw [arithResult_nonzero fmt chop fiv fiu hx, limitResult_underflow _ fiv fiu h]
    · rw [arithResult_nonzero fmt chop fiv fiu hx, limitResult_between _ fiv fiu h1 h2]

end Sys2Proof.Machine
end

section
/-! PROOFS. Chopping and rounding to L bits (45 R503, R507), and the value of the pattern a rounded result is packed
into (R508). -/

namespace Sys2Proof.Machine

/-! ## The exponent of a number -/

theorem abs_value (x : Exact) : |x.value| = (x.num / x.den : ℚ) * (2 : ℚ) ^ x.exp := by
  have hsign : |if x.neg then (-1 : ℚ) else 1| = 1 := by split <;> simp
  have hmagnitude : (0 : ℚ) ≤ x.num / x.den := by positivity
  rw [Exact.value, abs_mul, abs_mul, hsign, one_mul, abs_of_nonneg hmagnitude, abs_of_pos (by positivity)]

/-- Shifting a quotient of natural numbers by a power of two, which goes to the numerator or to the denominator. -/
theorem shifted_quotient (n d : ℕ) (k : ℤ) :
    ((if 0 ≤ k then n * 2 ^ k.toNat else n : ℕ) : ℚ) / ((if 0 ≤ k then d else d * 2 ^ (-k).toNat : ℕ) : ℚ) =
      n / d * (2 : ℚ) ^ k := by
  by_cases hk : 0 ≤ k
  · obtain ⟨m, rfl⟩ := Int.eq_ofNat_of_zero_le hk
    rw [if_pos hk, if_pos hk]
    push_cast
    rw [Int.toNat_natCast, zpow_natCast]
    ring
  · obtain ⟨m, hm⟩ := Int.eq_ofNat_of_zero_le (show 0 ≤ -k by omega)
    obtain rfl : k = -(m : ℤ) := by omega
    rw [if_neg hk, if_neg hk, neg_neg, Int.toNat_natCast, zpow_neg, zpow_natCast]
    push_cast
    rw [← div_div, div_eq_mul_inv _ ((2 : ℚ) ^ m)]

/-- A positive natural number lies between the powers of two of its binary logarithm. -/
theorem log2_bounds {n : ℕ} (hn : n ≠ 0) : (2 : ℚ) ^ (n.log2 : ℤ) ≤ n ∧ (n : ℚ) < 2 ^ ((n.log2 : ℤ) + 1) := by
  have hle : 2 ^ n.log2 ≤ n := Nat.log2_self_le hn
  have hlt : n < 2 ^ (n.log2 + 1) := Nat.lt_log2_self
  exact_mod_cast And.intro hle hlt

/-- A quotient lies within a factor of two of the power of two of the logarithms' difference. -/
theorem quotient_bounds {n d : ℕ} (hn : n ≠ 0) (hd : d ≠ 0) :
    (2 : ℚ) ^ ((n.log2 : ℤ) - d.log2 - 1) ≤ n / d ∧ (n / d : ℚ) < 2 ^ ((n.log2 : ℤ) - d.log2 + 1) := by
  have two_ne : (2 : ℚ) ≠ 0 := two_ne_zero
  obtain ⟨hn1, hn2⟩ := log2_bounds hn
  obtain ⟨hd1, hd2⟩ := log2_bounds hd
  have hdpos : (0 : ℚ) < d := by positivity
  constructor
  · calc (2 : ℚ) ^ ((n.log2 : ℤ) - d.log2 - 1) = 2 ^ (n.log2 : ℤ) / 2 ^ ((d.log2 : ℤ) + 1) := by
          rw [← zpow_sub₀ two_ne, sub_sub]
      _ ≤ n / d := div_le_div₀ (by positivity) hn1 hdpos hd2.le
  · calc (n / d : ℚ) < 2 ^ ((n.log2 : ℤ) + 1) / 2 ^ (d.log2 : ℤ) :=
          div_lt_div₀ hn2 hd1 (by positivity) (by positivity)
      _ = 2 ^ ((n.log2 : ℤ) - d.log2 + 1) := by
          rw [← zpow_sub₀ two_ne, sub_add_eq_add_sub]

/-- The comparison that `trueExponent` makes. -/
theorem pow_le_quotient_iff {n d : ℕ} (hn : n ≠ 0) (hd : d ≠ 0) (j : ℤ) :
    (if 0 ≤ j then decide (d * 2 ^ j.toNat ≤ n) else decide (d ≤ n * 2 ^ (-j).toNat)) = true ↔ (2 : ℚ) ^ j ≤ n / d := by
  have hshift := shifted_quotient d n j
  have hd' : (0 : ℚ) < d := by positivity
  have hn' : (0 : ℚ) < n := by positivity
  have hscale : (2 : ℚ) ^ j ≤ n / d ↔ (d / n * (2 : ℚ) ^ j : ℚ) ≤ 1 := by
    rw [le_div_iff₀ hd', div_mul_eq_mul_div, div_le_one hn', mul_comm]
  rw [hscale, ← hshift]
  split
  · rw [decide_eq_true_eq, div_le_one hn']
    norm_cast
  · rw [decide_eq_true_eq, div_le_one (by positivity)]
    norm_cast

theorem trueExponent_eq {x : Exact} (hn : x.num ≠ 0) (hd : x.den ≠ 0) : x.trueExponent = x.exp +
    if (2 : ℚ) ^ ((x.num.log2 : ℤ) - x.den.log2) ≤ x.num / x.den then (x.num.log2 : ℤ) - x.den.log2 + 1
    else (x.num.log2 : ℤ) - x.den.log2 := by
  simp only [Exact.trueExponent, pow_le_quotient_iff hn hd]

/-- R507: the true exponent K. -/
theorem trueExponent_bounds {x : Exact} (hn : x.num ≠ 0) (hd : x.den ≠ 0) :
    (2 : ℚ) ^ (x.trueExponent - 1) ≤ |x.value| ∧ |x.value| < (2 : ℚ) ^ x.trueExponent := by
  have hpos : (0 : ℚ) < 2 ^ x.exp := by positivity
  have hscale (k : ℤ) : (2 : ℚ) ^ (x.exp + k) = 2 ^ k * 2 ^ x.exp := by rw [add_comm, zpow_add₀ two_ne_zero]
  obtain ⟨hlow, hhigh⟩ := quotient_bounds hn hd
  rw [abs_value, trueExponent_eq hn hd, add_sub_assoc, hscale, hscale, mul_le_mul_iff_of_pos_right hpos,
    mul_lt_mul_iff_of_pos_right hpos]
  split
  case isTrue hle => exact ⟨by rwa [add_sub_cancel_right], hhigh⟩
  case isFalse hlt => exact ⟨hlow, not_le.1 hlt⟩

/-! ## The fraction kept -/

/-- The magnitude as a fraction of L bits: at least `2 ^ (L - 1)` and below `2 ^ L`. -/
theorem scaledMagnitude_bounds {x : Exact} (hn : x.num ≠ 0) (hd : x.den ≠ 0) (L : ℤ) :
    (2 : ℚ) ^ (L - 1) ≤ |x.value| * (2 : ℚ) ^ (L - x.trueExponent) ∧
    |x.value| * (2 : ℚ) ^ (L - x.trueExponent) < (2 : ℚ) ^ L := by
  have two_ne : (2 : ℚ) ≠ 0 := two_ne_zero
  have hpos : (0 : ℚ) < 2 ^ (L - x.trueExponent) := by positivity
  obtain ⟨hlow, hhigh⟩ := trueExponent_bounds hn hd
  have hlow' := mul_le_mul_of_nonneg_right hlow hpos.le
  have hhigh' := mul_lt_mul_of_pos_right hhigh hpos
  rw [← zpow_add₀ two_ne] at hlow' hhigh'
  rw [show x.trueExponent - 1 + (L - x.trueExponent) = L - 1 by ring] at hlow'
  rw [add_sub_cancel] at hhigh'
  exact ⟨hlow', hhigh'⟩

/-- The integer part of a quotient, and of a quotient and one half. -/
theorem floor_quotient (n : ℕ) {d : ℕ} (hd : d ≠ 0) (chop : Bool) :
    ((if chop then n / d else (2 * n + d) / (2 * d) : ℕ) : ℤ) = ⌊(n / d : ℚ) + (if chop then 0 else 1 / 2)⌋ := by
  have hfloor (a b : ℕ) : ((a / b : ℕ) : ℤ) = ⌊(a / b : ℚ)⌋ := by
    rw [Rat.floor_natCast_div_natCast, Int.natCast_div]
  cases chop with
  | true => rw [if_pos rfl, if_pos rfl, add_zero, hfloor]
  | false =>
    have hhalf : ((2 * n + d : ℕ) / (2 * d : ℕ) : ℚ) = n / d + 1 / 2 := by
      have hd' : (d : ℚ) ≠ 0 := Nat.cast_ne_zero.2 hd
      push_cast
      field_simp
    rw [if_neg Bool.false_ne_true, if_neg Bool.false_ne_true, hfloor, hhalf]

/-- R507: the fraction kept is the integer part of `|x| * 2 ^ (L - K)`, or of that and one half. -/
theorem fractionBits_eq_floor {x : Exact} (hd : x.den ≠ 0) (L : ℕ) (chop : Bool) : ((x.fractionBits L chop : ℕ) : ℤ) =
    ⌊|x.value| * (2 : ℚ) ^ ((L : ℤ) - x.trueExponent) + (if chop then 0 else 1 / 2)⌋ := by
  have hshift := shifted_quotient x.num x.den (L - (x.trueExponent - x.exp))
  have hscaled : |x.value| * (2 : ℚ) ^ ((L : ℤ) - x.trueExponent) =
      x.num / x.den * (2 : ℚ) ^ ((L : ℤ) - (x.trueExponent - x.exp)) := by
    rw [abs_value, mul_assoc, ← zpow_add₀ two_ne_zero]
    congr 2
    ring
  rw [hscaled, ← hshift, ← floor_quotient]
  · rfl
  · split
    · exact hd
    · exact Nat.mul_ne_zero hd (by positivity)

/-- A fraction kept has L bits, but that rounding may carry into one more. -/
theorem fractionBits_bounds {x : Exact} (hn : x.num ≠ 0) (hd : x.den ≠ 0) (L : ℕ) (chop : Bool) :
    2 ^ L ≤ x.fractionBits (L + 1) chop ∧ x.fractionBits (L + 1) chop ≤ 2 ^ (L + 1) := by
  have hfloor := fractionBits_eq_floor hd (L + 1) chop
  obtain ⟨hlow, hhigh⟩ := scaledMagnitude_bounds hn hd ((L + 1 : ℕ) : ℤ)
  generalize |x.value| * (2 : ℚ) ^ (((L + 1 : ℕ) : ℤ) - x.trueExponent) = m at *
  have hhalf : (0 : ℚ) ≤ (if chop then 0 else 1 / 2) ∧ (if chop then 0 else 1 / 2 : ℚ) < 1 := by split <;> norm_num
  rw [show ((L + 1 : ℕ) : ℤ) - 1 = (L : ℤ) by push_cast; ring, zpow_natCast] at hlow
  rw [zpow_natCast] at hhigh
  have hle : ((2 ^ L : ℕ) : ℤ) ≤ x.fractionBits (L + 1) chop := by
    rw [hfloor, Int.le_floor]
    push_cast
    linarith
  have hlt : (x.fractionBits (L + 1) chop : ℤ) < ((2 ^ (L + 1) + 1 : ℕ) : ℤ) := by
    rw [hfloor, Int.floor_lt]
    push_cast
    linarith
  omega

/-! ## Rounding -/

theorem roundTo_neg (x : Exact) (L : ℕ) (chop : Bool) : (roundTo x L chop).neg = x.neg := by
  unfold roundTo
  dsimp only
  split <;> rfl

/-- The carry out of the fraction is made good in the exponent: the fraction has L bits again, and the value is that of the
fraction kept. -/
theorem roundTo_spec {x : Exact} (hn : x.num ≠ 0) (hd : x.den ≠ 0) (L : ℕ) (chop : Bool) :
    2 ^ L ≤ (roundTo x (L + 1) chop).fraction ∧ (roundTo x (L + 1) chop).fraction < 2 ^ (L + 1) ∧
    ((roundTo x (L + 1) chop).fraction : ℚ) * (2 : ℚ) ^ ((roundTo x (L + 1) chop).biased - 128) =
      (x.fractionBits (L + 1) chop : ℚ) * (2 : ℚ) ^ x.trueExponent := by
  obtain ⟨hlow, hhigh⟩ := fractionBits_bounds hn hd L chop
  unfold roundTo
  dsimp only
  split
  case isTrue hcarry =>
    refine ⟨le_rfl, Nat.pow_lt_pow_right (by decide) (Nat.lt_succ_self L), ?_⟩
    rw [hcarry, show x.trueExponent + 129 - 128 = 1 + x.trueExponent by ring, zpow_add₀ two_ne_zero]
    push_cast
    ring
  case isFalse hcarry =>
    refine ⟨hlow, lt_of_le_of_ne hhigh hcarry, ?_⟩
    rw [add_sub_cancel_right]

/-! ## The packed value -/

/-- R508: a fraction of L bits with a biased exponent within the limits is packed without loss. -/
theorem floatValue_packFloat (neg : Bool) {biased : ℤ} {fraction L : ℕ} (h1 : 1 ≤ biased) (h2 : biased ≤ 255) (hL : L ≤ 55)
    (hlow : 2 ^ L ≤ fraction) (hhigh : fraction < 2 ^ (L + 1)) : floatValue (packFloat neg biased fraction (L + 1)) =
    (if neg then -1 else 1) * fraction * (2 : ℚ) ^ (biased - 128 - (L + 1 : ℕ)) := by
  have two_ne : (2 : ℚ) ≠ 0 := two_ne_zero
  have hexp : ((BitVec.ofInt 8 biased).toNat : ℤ) = biased := by
    rw [BitVec.toNat_ofInt]
    omega
  have hnonzero : BitVec.ofInt 8 biased ≠ 0#8 := fun h => by
    rw [h] at hexp
    simp at hexp
    omega
  have hsmall : (fraction - 2 ^ L) * 2 ^ (55 - L) < 2 ^ 55 := by
    calc (fraction - 2 ^ L) * 2 ^ (55 - L) < 2 ^ L * 2 ^ (55 - L) :=
          Nat.mul_lt_mul_of_pos_right (by omega) (by positivity)
      _ = 2 ^ 55 := by rw [← pow_add, Nat.add_sub_cancel' hL]
  have hfraction : (((packFloat neg biased fraction (L + 1)).extractLsb' 0 55).toNat : ℚ) / 2 ^ 56 =
      fraction * (2 : ℚ) ^ (-((L + 1 : ℕ) : ℤ)) - 1 / 2 := by
    have hsplit : (2 : ℚ) ^ 56 = 2 ^ (55 - L) * 2 ^ (L + 1) := by
      rw [← pow_add]
      congr 1
      omega
    rw [fraction_packFloat, Nat.add_sub_cancel, Nat.add_sub_add_right 55 1 L, BitVec.toNat_ofNat, Nat.mod_eq_of_lt hsmall,
      hsplit, zpow_neg, zpow_natCast]
    push_cast [Nat.cast_sub hlow]
    field_simp
    ring
  unfold floatValue exponentField
  rw [exponent_packFloat, msb_packFloat, if_neg hnonzero, hexp, hfraction, sub_eq_add_neg (biased - 128),
    zpow_add₀ two_ne]
  ring

/-- Settles O55: `trueExponent_bounds`, `fractionBits_eq_floor`, `roundTo_spec` and `floatValue_packFloat`, for both widths. -/
theorem roundingRule : Obligations.RoundingRule := by
  intro x chop hn hd L hL
  obtain ⟨n, rfl, hn55⟩ : ∃ n, L = n + 1 ∧ n ≤ 55 := by
    obtain rfl | rfl : L = 24 ∨ L = 56 := by simpa using hL
    · exact ⟨23, rfl, by decide⟩
    · exact ⟨55, rfl, le_rfl⟩
  obtain ⟨hK1, hK2⟩ := trueExponent_bounds hn hd
  obtain ⟨hlow, hhigh, hvalue⟩ := roundTo_spec hn hd n chop
  refine ⟨hK1, hK2, fractionBits_eq_floor hd (n + 1) chop, hlow, hhigh, roundTo_neg x _ chop, hvalue, fun h1 h2 => ?_⟩
  rw [← roundTo_neg x (n + 1) chop]
  exact floatValue_packFloat _ h1 h2 hn55 hlow hhigh

end Sys2Proof.Machine
end

section
/-! PROOFS. Several instructions with one body (45 R500), and what evaluating and reading the operands of the floating-point
instructions leaves of the floating-point unit (45 R523, R524; 20_memory R156; 60 R600). -/

namespace Sys2Proof.Machine

/-! ## Instructions with one body -/

/-- Each of these instructions runs this body. -/
def RunsBody (is : List Instr) (body : M Unit) : Prop := ∀ i ∈ is, ∀ s, exec i s = complete body s

section
variable {i j : Instr} {is js : List Instr} {body : M Unit} {s t u : State} {e : Exit}

theorem RunsBody.one (hi : ∀ s, exec i s = complete body s) : RunsBody [i] body :=
  List.forall_mem_singleton.2 hi

theorem RunsBody.cons (hi : ∀ s, exec i s = complete body s) (h : RunsBody is body) : RunsBody (i :: is) body :=
  List.forall_mem_cons.2 ⟨hi, h⟩

theorem RunsBody.two (hi : ∀ s, exec i s = complete body s) (hj : ∀ s, exec j s = complete body s) :
    RunsBody [i, j] body := .cons hi (.one hj)

theorem RunsBody.next (h : RunsBody is body) (hrun : body s = .ok () t) : ∀ i ∈ is, exec i s = .next t :=
  fun i hi => (h i hi s).trans (complete_ok hrun)

theorem RunsBody.next_one (h : RunsBody [i] body) (hrun : body s = .ok () t) : exec i s = .next t :=
  h.next hrun i (List.mem_singleton_self i)

/-- The "end instruction" of a floating exception leaves the state it came to (45 R524). -/
theorem RunsBody.next_ended (h : RunsBody is body) (hrun : body s = .error .ended t) : ∀ i ∈ is, exec i s = .next t :=
  fun i hi => (h i hi s).trans (complete_ended hrun)

theorem RunsBody.endsEarly (h : RunsBody is body) (hrun : body s = .error e u) : s.EndsEarly is e u :=
  fun i hi => endsEarly_of_body (h i hi s) hrun i (List.mem_singleton_self i)

theorem endsEarly_append (hi : s.EndsEarly is e u) (hj : s.EndsEarly js e u) : s.EndsEarly (is ++ js) e u :=
  List.forall_mem_append.2 ⟨hi, hj⟩

end

/-! ## The floating-point unit while operands are evaluated and read -/

section
variable {s t : State} {f : Operand} {fmt : FFormat} {p : FPlace} {v : BitVec 64}

theorem ReadOnce.fpu (h : ReadOnce s t) : t.fpu = s.fpu := by
  obtain ⟨n, -, ht⟩ := h
  rw [ht]

theorem place_ok_fpu {sz : Size} {p : Place} (h : place sz f s = .ok p t) : t.fpu = s.fpu := by
  obtain ⟨n, ht⟩ := (place_ok h).1.rest
  rw [ht]

theorem readOp_ok_fpu {sz : Size} {x : Word} (h : readOp sz f s = .ok x t) : t.fpu = s.fpu := by
  obtain ⟨p, u, hplace, hread⟩ := bind_eq_ok h
  exact (readPlace_once (by decide) hread).fpu.trans (place_ok_fpu hplace)

theorem readWords_ok_fpu {sp : Space} {n : Nat} {a : Word} {ws : List Word} (h : readWords sp n a s = .ok ws t) :
    t.fpu = s.fpu := by
  induction n generalizing s a ws with
  | zero => cases h; rfl
  | succ n ih =>
    obtain ⟨w, u, hfirst, hrest⟩ := bind_eq_ok h
    obtain ⟨ws', u', hwords, hpure⟩ := bind_eq_ok hrest
    cases hpure
    exact (ih hwords).trans (readPlace_once (by decide) hfirst).fpu

theorem readLong_ok_fpu {n : Nat} {x : Space × Word × BitVec 64} (h : readLong f n s = .ok x t) : t.fpu = s.fpu := by
  obtain ⟨⟨sp, a⟩, u, haddress, hrest⟩ := bind_eq_ok h
  obtain ⟨ws, u', hwords, hpure⟩ := bind_eq_ok hrest
  cases hpure
  exact (readWords_ok_fpu hwords).trans (effectiveAddress_ok_fpu haddress)

theorem floatPlace_ok_fpu (h : floatPlace f fmt s = .ok p t) : t.fpu = s.fpu := by
  by_cases hm : f.mode = .register
  · cases hn : accOfReg f.reg with
    | some n =>
      rw [floatPlace_accumulator fmt s hm hn] at h
      cases h
      rfl
    | none =>
      rw [floatPlace_missing fmt s hm hn] at h
      cases h
  · rw [floatPlace_memory fmt s hm] at h
    obtain ⟨x, u, haddress, hpure⟩ := bind_eq_ok h
    cases hpure
    exact effectiveAddress_ok_fpu haddress

theorem readFloatPlace_ok_fpu (h : readFloatPlace f fmt p s = .ok v t) : t.fpu = s.fpu := by
  cases p with
  | acc n => cases h; rfl
  | mem sp a =>
    obtain ⟨ws, u, hwords, hpure⟩ := bind_eq_ok h
    cases hpure
    exact readWords_ok_fpu hwords

/-- A pattern that is not the undefined variable passes, and nothing changes. -/
theorem checkUndefined_ok (h : checkUndefined p v s = .ok () t) : t = s := by
  cases p with
  | acc n => cases h; rfl
  | mem sp a =>
    rw [checkUndefined_memory] at h
    split at h <;> cases h
    rfl

/-- A source that was read was evaluated, read and found defined. -/
theorem readFloatSource_ok_fpu (h : readFloatSource f fmt s = .ok v t) : t.fpu = s.fpu := by
  obtain ⟨p, u, hplace, hrest⟩ := bind_eq_ok h
  obtain ⟨w, u', hread, hrest⟩ := bind_eq_ok hrest
  obtain ⟨_, u'', hcheck, hpure⟩ := bind_eq_ok hrest
  cases hpure
  rw [checkUndefined_ok hcheck]
  exact (readFloatPlace_ok_fpu hread).trans (floatPlace_ok_fpu hplace)

theorem acc_of_fpu (h : t.fpu = s.fpu) (n : Fin 6) (fmt : FFormat) : t.acc n fmt = s.acc n fmt :=
  acc_congr (congrArg Fpu.ac h) n fmt

theorem precision_of_fpu (h : t.fpu = s.fpu) : t.precision = s.precision := by rw [State.precision, State.precision, h]

theorem chop_of_fpu (h : t.fpu = s.fpu) : t.chop = s.chop := by rw [State.chop, State.chop, h]

theorem fiv_of_fpu (h : t.fpu = s.fpu) : t.fiv = s.fiv := by rw [State.fiv, State.fiv, h]

theorem fiu_of_fpu (h : t.fpu = s.fpu) : t.fiu = s.fiu := by rw [State.fiu, State.fiu, h]

end

end Sys2Proof.Machine
end

section
/-! PROOFS. Writing consecutive words, each with the answer of its own reference (45 R521, R523; 20_memory R143), and the words of
a two-word operand. -/

namespace Sys2Proof.Machine

section
variable {sp : Space} {w : Word} {ws : List Word} {a : Word} {s t u : State} {b b' : Bool} {e : Exit}

theorem writeWords_cons_ok (hfirst : writePlace .word (.mem sp a) w s = .ok b t)
    (hrest : writeWords sp ws (a + 2#16) t = .ok b' u) : writeWords sp (w :: ws) a s = .ok (b || b') u :=
  (run_bind_ok hfirst).trans (run_bind_ok hrest)

theorem writeWords_cons_error (hfirst : writePlace .word (.mem sp a) w s = .error e u) :
    writeWords sp (w :: ws) a s = .error e u := run_bind_error hfirst

theorem writeWords_cons_error_rest (hfirst : writePlace .word (.mem sp a) w s = .ok b t)
    (hrest : writeWords sp ws (a + 2#16) t = .error e u) : writeWords sp (w :: ws) a s = .error e u :=
  (run_bind_ok hfirst).trans (run_bind_error hrest)

theorem writeWords_one_ok (h : writePlace .word (.mem sp a) w s = .ok b t) : writeWords sp [w] a s = .ok b t := by
  rw [← Bool.or_false b]
  exact writeWords_cons_ok h rfl

end

/-- The operand is an immediate, or mode 4 with the PC: one word of it moves (45 R521, R524). -/
def MovesOneWord (f : Operand) : Prop := f.reg = .pc ∧ (f.mode = .autoInc ∨ f.mode = .autoDec)

theorem wordsMoved_one {f : Operand} (n : Nat) (h : MovesOneWord f) : wordsMoved f n = 1 := if_pos h

theorem wordsMoved_all {f : Operand} (n : Nat) (h : ¬MovesOneWord f) : wordsMoved f n = n := if_neg h

/-- The words of two, left-justified. -/
theorem unpackWords_two (high low : Word) : unpackWords (high ++ low ++ 0#32) = [high, low, 0#16, 0#16] := by
  have htop : (high ++ low ++ 0#32).extractLsb' 48 16 = high :=
    (BitVec.extractLsb'_append_eq_of_le (by decide)).trans BitVec.extractLsb'_append_eq_left
  have hnext : (high ++ low ++ 0#32).extractLsb' 32 16 = low :=
    (BitVec.extractLsb'_append_eq_of_le (by decide)).trans BitVec.extractLsb'_append_eq_right
  have hzero (k : Nat) (hk : k + 16 ≤ 32) : (high ++ low ++ 0#32).extractLsb' k 16 = 0#16 := by
    rw [BitVec.extractLsb'_append_eq_of_add_le hk]
    exact BitVec.extractLsb'_zero
  rw [unpackWords, htop, hnext, hzero 16 (by decide), hzero 0 (by decide)]

section
variable {f : Operand} {sp : Space} {a high low : Word}

theorem writeLongAt_one (hf : MovesOneWord f) : writeLongAt f 2 sp a (high ++ low ++ 0#32) = writeWords sp [high] a := by
  rw [writeLongAt, wordsMoved_one 2 hf, unpackWords_two]
  rfl

theorem writeLongAt_two (hf : ¬MovesOneWord f) :
    writeLongAt f 2 sp a (high ++ low ++ 0#32) = writeWords sp [high, low] a := by
  rw [writeLongAt, wordsMoved_all 2 hf, unpackWords_two]
  rfl

end

end Sys2Proof.Machine
end

section
/-! PROOFS. CFCC, SETF, SETD, SETI, SETL, LDFPS, STFPS, STST and the illegal floating codes (46 R541 to R547, R571; 45 R511,
R530; 92 D31, D39). -/

namespace Sys2Proof.Machine

/-- CFCC's codes are FPS bits 3:0 as N, Z, V, C. -/
theorem ofBits_lowNibble (fps : Word) : Cc.ofBits (fps.extractLsb' 0 4) =
    ⟨fps.getLsbD 3, fps.getLsbD 2, fps.getLsbD 1, fps.getLsbD 0⟩ := by simp [Cc.ofBits]

section
variable {f : Operand} {s s1 t u : State} {sp : Space} {a : Word} {b b' : Bool} {e : Exit}

/-- STFPS once its destination is evaluated: the FPS is as it was before. -/
theorem storeFps_run {p : Place} (hplace : place .word f s = .ok p s1) : storeFps f s =
    (writePlace .word p (s.fpu.fps &&& 0o147757#16) >>= fun _ => (pure () : M Unit)) s1 := by
  rw [← place_ok_fpu hplace]
  exact run_bind_ok hplace

theorem storeStatus_register (s : State) (hm : f.mode = .register) :
    storeStatus f s = .ok () (s.setReg f.reg (s.fpu.fec.setWidth 16)) := by
  rw [storeStatus, if_pos hm]
  rfl

theorem storeStatus_error (hm : f.mode ≠ .register) (haddress : effectiveAddress f 4 s = .error e u) :
    storeStatus f s = .error e u := by
  rw [storeStatus, if_neg hm]
  exact run_bind_error haddress

/-- STST in memory: FEC and FEA, as they were, are the two words of a long operand. -/
theorem storeStatus_memory (hm : f.mode ≠ .register) (haddress : effectiveAddress f 4 s = .ok (sp, a) s1) :
    storeStatus f s =
      (writeLongAt f 2 sp a (s.fpu.fec.setWidth 16 ++ s.fpu.fea ++ 0#32) >>= fun _ => (pure () : M Unit)) s1 := by
  rw [storeStatus, if_neg hm, ← effectiveAddress_ok_fpu haddress]
  exact run_bind_ok haddress

theorem storeStatus_one (hm : f.mode ≠ .register) (hf : MovesOneWord f) (haddress : effectiveAddress f 4 s = .ok (sp, a) s1)
    (hwrite : memWrite sp s1.curMode .word a (s.fpu.fec.setWidth 16) s1 = .ok b t) : storeStatus f s = .ok () t := by
  rw [storeStatus_memory hm haddress, writeLongAt_one hf]
  exact run_bind_ok (writeWords_one_ok hwrite)

theorem storeStatus_two (hm : f.mode ≠ .register) (hf : ¬MovesOneWord f) (haddress : effectiveAddress f 4 s = .ok (sp, a) s1)
    (hwrite : memWrite sp s1.curMode .word a (s.fpu.fec.setWidth 16) s1 = .ok b t)
    (hwrite' : memWrite sp t.curMode .word (a + 2#16) s.fpu.fea t = .ok b' u) : storeStatus f s = .ok () u := by
  rw [storeStatus_memory hm haddress, writeLongAt_two hf]
  exact run_bind_ok (writeWords_cons_ok hwrite (writeWords_one_ok hwrite'))

/-- The first word is stored whether a second follows or not. -/
theorem storeStatus_first_error (hm : f.mode ≠ .register) (haddress : effectiveAddress f 4 s = .ok (sp, a) s1)
    (hwrite : memWrite sp s1.curMode .word a (s.fpu.fec.setWidth 16) s1 = .error e u) : storeStatus f s = .error e u := by
  rw [storeStatus_memory hm haddress]
  by_cases hf : MovesOneWord f
  · rw [writeLongAt_one hf]
    exact run_bind_error (writeWords_cons_error hwrite)
  · rw [writeLongAt_two hf]
    exact run_bind_error (writeWords_cons_error hwrite)

theorem storeStatus_second_error (hm : f.mode ≠ .register) (hf : ¬MovesOneWord f)
    (haddress : effectiveAddress f 4 s = .ok (sp, a) s1)
    (hwrite : memWrite sp s1.curMode .word a (s.fpu.fec.setWidth 16) s1 = .ok b t)
    (hwrite' : memWrite sp t.curMode .word (a + 2#16) s.fpu.fea t = .error e u) : storeStatus f s = .error e u := by
  rw [storeStatus_memory hm haddress, writeLongAt_two hf]
  exact run_bind_error (writeWords_cons_error_rest hwrite (writeWords_cons_error hwrite'))

end

/-- Settles O50: the FPS as a word, STST as one or two words written at an address, an illegal code as `floatException_eq`. -/
theorem floatControl : Obligations.FloatControl := by
  intro s f w
  have hldfps : RunsBody [.ldfps f] (loadFps f) := .one fun _ => rfl
  have hstfps : RunsBody [.stfps f] (storeFps f) := .one fun _ => rfl
  have hstst : RunsBody [.stst f] (storeStatus f) := .one fun _ => rfl
  refine ⟨?_, ?_, fun v s1 hread => ?_, fun p s1 b t hplace hwrite => ?_, fun hm => ?_,
    fun hm sp a s1 b t haddress hwrite => ⟨fun hf => ?_, fun hf b' u hwrite' => ?_⟩,
    fun e u => ⟨fun hread => ?_, fun hplace => ?_, fun p s1 hplace hwrite => ?_, fun hm haddress => ?_,
      fun hm sp a s1 haddress => ⟨fun hwrite => ?_, fun hf b t hwrite hwrite' => ?_⟩⟩, ?_⟩
  · rw [← ofBits_lowNibble]
    rfl
  · rintro row hrow
    simp only [List.mem_cons, List.not_mem_nil, or_false] at hrow
    rcases hrow with rfl | rfl | rfl | rfl <;> rfl
  · exact hldfps.next_one (run_bind_ok hread)
  · exact hstfps.next_one ((storeFps_run hplace).trans (run_bind_ok hwrite))
  · exact hstst.next_one (storeStatus_register s hm)
  · exact hstst.next_one (storeStatus_one hm hf haddress hwrite)
  · exact hstst.next_one (storeStatus_two hm hf haddress hwrite hwrite')
  · exact hldfps.endsEarly (run_bind_error hread)
  · exact hstfps.endsEarly (run_bind_error hplace)
  · exact hstfps.endsEarly ((storeFps_run hplace).trans (run_bind_error hwrite))
  · exact hstst.endsEarly (storeStatus_error hm haddress)
  · exact hstst.endsEarly (storeStatus_first_error hm haddress hwrite)
  · exact hstst.endsEarly (storeStatus_second_error hm hf haddress hwrite hwrite')
  · rw [← floatException_eq]
    rfl

end Sys2Proof.Machine
end

section
/-! PROOFS. CLR, TST, ABS, NEG, LD and ST in either precision (46 R548 to R553; 45 R504, R509, R523, R524, R531; 92 D34). -/

namespace Sys2Proof.Machine

/-! ## The sign of a pattern -/

theorem isFloatZero_eq_decide (v : BitVec 64) : isFloatZero v = decide (v.extractLsb' 55 8 = 0#8) := rfl

theorem isFloatZero_iff (v : BitVec 64) : isFloatZero v = true ↔ v.extractLsb' 55 8 = 0#8 := by
  rw [isFloatZero_eq_decide, decide_eq_true_eq]

/-- A pattern with its sign replaced keeps its exponent field. -/
theorem exponent_withSign (sign : BitVec 1) (v : BitVec 64) :
    (sign ++ v.extractLsb' 0 63).extractLsb' 55 8 = v.extractLsb' 55 8 := by
  rw [BitVec.extractLsb'_append_eq_of_add_le (by decide), BitVec.extractLsb'_extractLsb'_of_le (by decide)]

theorem isFloatZero_withSign (sign : BitVec 1) (v : BitVec 64) :
    isFloatZero (sign ++ v.extractLsb' 0 63) = isFloatZero v := by
  rw [isFloatZero_eq_decide, exponent_withSign, isFloatZero_eq_decide]

theorem getLsbD_signBit (i : Nat) : (BitVec.intMin 64).getLsbD i = decide (i = 63) := by
  rw [BitVec.getLsbD_intMin, decide_eq_decide]
  omega

theorem clearSign_eq (v : BitVec 64) : v &&& ~~~(BitVec.intMin 64) = 0#1 ++ v.extractLsb' 0 63 := by
  refine BitVec.eq_of_getLsbD_eq fun i hi => ?_
  rw [BitVec.getLsbD_and, BitVec.getLsbD_not, getLsbD_signBit, BitVec.getLsbD_append, BitVec.getLsbD_extractLsb']
  by_cases h : i < 63
  · simp [h, h.ne, hi]
  · simp [show i = 63 by omega]

theorem invertSign_eq (v : BitVec 64) : v ^^^ BitVec.intMin 64 = ~~~(v.extractLsb' 63 1) ++ v.extractLsb' 0 63 := by
  refine BitVec.eq_of_getLsbD_eq fun i hi => ?_
  rw [BitVec.getLsbD_xor, getLsbD_signBit, BitVec.getLsbD_append, BitVec.getLsbD_extractLsb', BitVec.getLsbD_not,
    BitVec.getLsbD_extractLsb']
  by_cases h : i < 63
  · simp [h, h.ne]
  · simp [show i = 63 by omega]

theorem absFloat_eq (v : BitVec 64) : absFloat v = if v.extractLsb' 55 8 = 0#8 then 0#64 else 0#1 ++ v.extractLsb' 0 63 := by
  simp only [absFloat, isFloatZero_iff, clearSign_eq]

theorem negFloat_eq (v : BitVec 64) :
    negFloat v = if v.extractLsb' 55 8 = 0#8 then 0#64 else ~~~(v.extractLsb' 63 1) ++ v.extractLsb' 0 63 := by
  simp only [negFloat, isFloatZero_iff, invertSign_eq]

/-- What a zero becomes is a zero, and nothing else becomes one. -/
theorem isFloatZero_absFloat (v : BitVec 64) : isFloatZero (absFloat v) = isFloatZero v := by
  by_cases h : isFloatZero v = true
  · rw [absFloat, if_pos h, h]
    rfl
  · rw [absFloat, if_neg h, clearSign_eq, isFloatZero_withSign]

theorem isFloatZero_negFloat (v : BitVec 64) : isFloatZero (negFloat v) = isFloatZero v := by
  by_cases h : isFloatZero v = true
  · rw [negFloat, if_pos h, h]
    rfl
  · rw [negFloat, if_neg h, invertSign_eq, isFloatZero_withSign]

theorem msb_absFloat (v : BitVec 64) : (absFloat v).msb = false := by
  rw [absFloat]
  split
  · rfl
  · rw [clearSign_eq, BitVec.msb_append]
    rfl

/-- ABS leaves FN clear and FZ from the operand. -/
theorem floatCc_absFloat (v : BitVec 64) :
    floatCc (absFloat v) false false = ⟨false, decide (v.extractLsb' 55 8 = 0#8), false, false⟩ := by
  rw [floatCc, msb_absFloat, isFloatZero_absFloat, isFloatZero_eq_decide]

theorem floatCc_negFloat (v : BitVec 64) :
    floatCc (negFloat v) false false = ⟨(negFloat v).msb, decide (v.extractLsb' 55 8 = 0#8), false, false⟩ := by
  rw [floatCc, isFloatZero_negFloat, isFloatZero_eq_decide]

/-! ## Running them -/

/-- Setting the floating codes, code by code. -/
theorem withFcc_eq_append (s : State) (n z v c : Bool) : s.withFcc ⟨n, z, v, c⟩ = { s with fpu := { s.fpu with
    fps := s.fpu.fps.extractLsb' 4 12 ++ BitVec.ofBool n ++ BitVec.ofBool z ++ BitVec.ofBool v ++ BitVec.ofBool c } } := by
  rw [withFcc_eq]
  simp only [Cc.bits, BitVec.append_assoc, BitVec.cast_eq]

section
variable {f : Operand} {ac : AcField} {g : BitVec 64 → BitVec 64} {s s1 s2 t u : State} {p : FPlace} {v : BitVec 64} {e : Exit}

theorem clearFloat_run (hplace : floatPlace f s.precision s = .ok p s1) : clearFloat f s =
    (writeFloatPlace f s.precision p 0#64 >>= fun _ => update fun s => s.withFcc ⟨false, true, false, false⟩) s1 :=
  run_bind_ok hplace

theorem modifyFloat_place (hplace : floatPlace f s.precision s = .ok p s1) : modifyFloat g f s =
    (readFloatPlace f s.precision p >>= fun v => checkUndefined p v >>= fun _ => writeFloatPlace f s.precision p (g v) >>=
      fun _ => update fun s => s.withFcc (floatCc (g v) false false)) s1 :=
  run_bind_ok hplace

theorem modifyFloat_read (hplace : floatPlace f s.precision s = .ok p s1)
    (hread : readFloatPlace f s.precision p s1 = .ok v s2) : modifyFloat g f s =
    (checkUndefined p v >>= fun _ => writeFloatPlace f s.precision p (g v) >>=
      fun _ => update fun s => s.withFcc (floatCc (g v) false false)) s2 :=
  (modifyFloat_place hplace).trans (run_bind_ok hread)

theorem modifyFloat_run (hplace : floatPlace f s.precision s = .ok p s1)
    (hread : readFloatPlace f s.precision p s1 = .ok v s2) (hcheck : checkUndefined p v s2 = .ok () s2) : modifyFloat g f s =
    (writeFloatPlace f s.precision p (g v) >>= fun _ => update fun s => s.withFcc (floatCc (g v) false false)) s2 :=
  (modifyFloat_read hplace hread).trans (run_bind_ok hcheck)

theorem loadFloat_run (hread : readFloatSource f s.precision s = .ok v s1) :
    loadFloat ac f s = .ok () ((s1.setAcc (acNumber ac) s.precision v).withFcc (floatCc v false false)) :=
  run_bind_ok hread

/-- ST stores the accumulator as it was before the destination was evaluated. -/
theorem storeFloat_run (hplace : floatPlace f s.precision s = .ok p s1) :
    storeFloat ac f s = writeFloatPlace f s.precision p (s.acc (acNumber ac) s.precision) s1 := by
  rw [← acc_of_fpu (floatPlace_ok_fpu hplace)]
  exact run_bind_ok hplace

end

/-! ## The names of each body -/

section
variable (f : Operand) (ac : AcField)

theorem runsBody_clear : RunsBody [.clrf f, .clrd f] (clearFloat f) := .two (fun _ => rfl) fun _ => rfl
theorem runsBody_test : RunsBody [.tstf f, .tstd f] (testFloat f) := .two (fun _ => rfl) fun _ => rfl
theorem runsBody_abs : RunsBody [.absf f, .absd f] (modifyFloat absFloat f) := .two (fun _ => rfl) fun _ => rfl
theorem runsBody_neg : RunsBody [.negf f, .negd f] (modifyFloat negFloat f) := .two (fun _ => rfl) fun _ => rfl
theorem runsBody_load : RunsBody [.ldf ac f, .ldd ac f] (loadFloat ac f) := .two (fun _ => rfl) fun _ => rfl
theorem runsBody_store : RunsBody [.stf ac f, .std ac f] (storeFloat ac f) := .two (fun _ => rfl) fun _ => rfl

/-- What ends both ABS and NEG early, before the result is written. -/
theorem modifyFloat_endsEarly {s u : State} {e : Exit} (h : ∀ g, modifyFloat g f s = .error e u) :
    s.EndsEarly [.absf f, .absd f, .negf f, .negd f] e u :=
  endsEarly_append ((runsBody_abs f).endsEarly (h absFloat)) ((runsBody_neg f).endsEarly (h negFloat))

end

/-- Settles O53: each body is its pieces in order, and the codes are those of the pattern it leaves. -/
theorem floatMoves : Obligations.FloatMoves := by
  rintro s f ac _ rfl
  refine ⟨withFcc_eq_append s, fun p s1 t hplace hwrite => ?_, fun v s1 hread => ?_,
    fun p s1 v s2 t hplace hread hcheck => ⟨?_, ?_⟩, fun v s1 hread => ?_, fun p s1 t hplace hwrite => ?_,
    fun e u => ⟨fun hplace => ?_, fun hread => ?_, fun p s1 hplace => ⟨fun hwrite => ?_, fun hwrite => ?_, fun hread => ?_,
      fun v s2 hread => ⟨fun hcheck => ?_, fun hcheck r => ⟨?_, ?_⟩⟩⟩⟩⟩
  · exact (runsBody_clear f).next ((clearFloat_run hplace).trans (run_bind_ok hwrite))
  · exact (runsBody_test f).next (run_bind_ok hread)
  · rintro r rfl hwrite
    rw [← absFloat_eq] at hwrite
    rw [← floatCc_absFloat]
    exact (runsBody_abs f).next ((modifyFloat_run hplace hread hcheck).trans (run_bind_ok hwrite))
  · rintro r rfl hwrite
    rw [← negFloat_eq] at hwrite ⊢
    rw [← floatCc_negFloat]
    exact (runsBody_neg f).next ((modifyFloat_run hplace hread hcheck).trans (run_bind_ok hwrite))
  · exact (runsBody_load f ac).next (loadFloat_run hread)
  · exact (runsBody_store f ac).next ((storeFloat_run hplace).trans hwrite)
  · have hend (g) : modifyFloat g f s = .error e u := (run_look_bind ..).trans (run_bind_error hplace)
    exact endsEarly_append ((runsBody_clear f).endsEarly ((run_look_bind ..).trans (run_bind_error hplace)))
      (endsEarly_append (modifyFloat_endsEarly f hend)
        ((runsBody_store f ac).endsEarly ((run_look_bind ..).trans (run_bind_error hplace))))
  · exact endsEarly_append ((runsBody_test f).endsEarly ((run_look_bind ..).trans (run_bind_error hread)))
      ((runsBody_load f ac).endsEarly ((run_look_bind ..).trans (run_bind_error hread)))
  · exact (runsBody_clear f).endsEarly ((clearFloat_run hplace).trans (run_bind_error hwrite))
  · exact (runsBody_store f ac).endsEarly ((storeFloat_run hplace).trans hwrite)
  · exact modifyFloat_endsEarly f fun _ => (modifyFloat_place hplace).trans (run_bind_error hread)
  · exact modifyFloat_endsEarly f fun _ => (modifyFloat_read hplace hread).trans (run_bind_error hcheck)
  · rintro rfl hwrite
    rw [← absFloat_eq] at hwrite
    exact (runsBody_abs f).endsEarly ((modifyFloat_run hplace hread hcheck).trans (run_bind_error hwrite))
  · rintro rfl hwrite
    rw [← negFloat_eq] at hwrite
    exact (runsBody_neg f).endsEarly ((modifyFloat_run hplace hread hcheck).trans (run_bind_error hwrite))

end Sys2Proof.Machine
end

section
/-! PROOFS. Exact numbers: their rational value, and the value of a sum, a product and a quotient (45 R503, R504, R507). -/

namespace Sys2Proof.Machine

/-! ## Sign, zero and value -/

theorem sign_xor (a b : Bool) : (if (a ^^ b) then -1 else 1 : ℚ) = (if a then -1 else 1) * (if b then -1 else 1) := by
  cases a <;> cases b <;> norm_num

theorem sign_inv (b : Bool) : (if b then -1 else 1 : ℚ)⁻¹ = if b then -1 else 1 := by cases b <;> norm_num

theorem floatValue_of_zero {v : BitVec 64} (h : v.extractLsb' 55 8 = 0#8) : floatValue v = 0 := if_pos h

/-- The exact number of a pattern is its value. -/
theorem value_ofPattern (v : BitVec 64) : (Exact.ofPattern v).value = floatValue v := by
  by_cases h : isFloatZero v = true
  · rw [Exact.ofPattern, if_pos h, floatValue_of_zero ((isFloatZero_iff v).1 h)]
    norm_num [Exact.value, Exact.zero]
  · have hexp (e : ℤ) : (2 : ℚ) ^ (e - 184) = 2 ^ (e - 128) / 2 ^ 56 := by
      rw [show e - 184 = e - 128 - (56 : ℕ) by push_cast; ring, zpow_sub₀ two_ne_zero, zpow_natCast]
    have hfield : exponentField v ≠ 0#8 := fun h' => h ((isFloatZero_iff v).2 h')
    rw [Exact.ofPattern, if_neg h, floatValue, if_neg hfield]
    simp only [Exact.value, hexp]
    push_cast
    ring

theorem den_ofPattern (v : BitVec 64) : (Exact.ofPattern v).den = 1 := by
  unfold Exact.ofPattern
  split <;> rfl

/-- Only the patterns with a zero exponent field are zero: the others have the hidden bit. -/
theorem num_ofPattern_ne_zero {v : BitVec 64} (h : v.extractLsb' 55 8 ≠ 0#8) : (Exact.ofPattern v).num ≠ 0 := by
  rw [Exact.ofPattern, if_neg fun h' => h ((isFloatZero_iff v).1 h')]
  exact (Nat.add_pos_left (by decide) _).ne'

section
variable {x y : Exact}

theorem value_eq_zero_iff (hd : x.den ≠ 0) : x.value = 0 ↔ x.num = 0 := by
  rw [← abs_eq_zero, abs_value, mul_eq_zero, div_eq_zero_iff, Nat.cast_eq_zero, Nat.cast_eq_zero]
  exact ⟨fun h => (h.resolve_right (by positivity)).resolve_right hd, fun h => .inl (.inl h)⟩

/-- The value of a number that is not zero has its sign. -/
theorem value_neg_iff (hn : x.num ≠ 0) (hd : x.den ≠ 0) : x.value < 0 ↔ x.neg = true := by
  have hmagnitude : (0 : ℚ) < x.num / x.den * 2 ^ x.exp := by positivity
  rw [Exact.value, mul_assoc]
  cases x.neg with
  | true => simp only [if_true]; exact ⟨fun _ => trivial, fun _ => by linarith⟩
  | false => simp only [Bool.false_eq_true, if_false, iff_false]; linarith

/-- A value is its sign and its magnitude. -/
theorem value_eq_sign_mul_abs (x : Exact) : x.value = (if x.neg then -1 else 1) * |x.value| := by
  rw [abs_value, Exact.value, mul_assoc]

/-! ## The operations -/

theorem value_negate (x : Exact) : x.negate.value = -x.value := by
  unfold Exact.value Exact.negate
  cases x.neg <;> simp

theorem value_mul (hx : x.den = 1) (hy : y.den = 1) : (x.mul y).value = x.value * y.value := by
  unfold Exact.value Exact.mul
  rw [hx, hy, sign_xor, zpow_add₀ two_ne_zero]
  push_cast
  ring

theorem value_div (hx : x.den = 1) (hy : y.den = 1) : (x.div y).value = x.value / y.value := by
  unfold Exact.value Exact.div
  simp only [hx, hy, sign_xor, zpow_sub₀ (two_ne_zero (α := ℚ)), div_eq_mul_inv, mul_inv, sign_inv, Nat.cast_one, inv_one]
  ring

/-- The signed numerator at a smaller exponent stands for the same value. -/
theorem scaled_value (hx : x.den = 1) {e : ℤ} (he : e ≤ x.exp) : (x.scaled e : ℚ) * (2 : ℚ) ^ e = x.value := by
  obtain ⟨k, hk⟩ := Int.eq_ofNat_of_zero_le (sub_nonneg.2 he)
  have hexp : x.exp = k + e := by omega
  unfold Exact.scaled Exact.value
  rw [hk, Int.toNat_natCast, hx, hexp, zpow_add₀ two_ne_zero, zpow_natCast]
  push_cast
  ring

/-- An integer as sign and magnitude. -/
theorem signed_natAbs (n : ℤ) : (if decide (n < 0) then -1 else 1 : ℚ) * n.natAbs = n := by
  rw [Nat.cast_natAbs]
  by_cases h : n < 0
  · rw [decide_eq_true h, if_pos rfl, abs_of_neg h]
    push_cast
    ring
  · rw [decide_eq_false h, if_neg Bool.false_ne_true, abs_of_nonneg (not_lt.1 h), one_mul]

/-- The signed numerator of a sum. -/
def sumNumerator (x y : Exact) : ℤ := x.scaled (min x.exp y.exp) + y.scaled (min x.exp y.exp)

theorem add_eq (x y : Exact) :
    x.add y = ⟨decide (sumNumerator x y < 0), (sumNumerator x y).natAbs, 1, min x.exp y.exp⟩ := rfl

theorem sumNumerator_value (hx : x.den = 1) (hy : y.den = 1) :
    (sumNumerator x y : ℚ) * (2 : ℚ) ^ min x.exp y.exp = x.value + y.value := by
  rw [sumNumerator, Int.cast_add, add_mul, scaled_value hx (min_le_left ..), scaled_value hy (min_le_right ..)]

theorem value_add (hx : x.den = 1) (hy : y.den = 1) : (x.add y).value = x.value + y.value := by
  rw [← sumNumerator_value hx hy, add_eq, Exact.value]
  dsimp only
  rw [Nat.cast_one, div_one, signed_natAbs]

/-- A sum carries the sign of its value: a zero sum is not negative. -/
theorem add_neg (hx : x.den = 1) (hy : y.den = 1) : (x.add y).neg = decide (x.value + y.value < 0) := by
  have hpos : (0 : ℚ) < 2 ^ min x.exp y.exp := by positivity
  rw [add_eq, decide_eq_decide, ← sumNumerator_value hx hy, ← Int.cast_lt_zero (R := ℚ)]
  exact ⟨fun h => mul_neg_of_neg_of_pos h hpos, fun h => neg_of_mul_neg_left h hpos.le⟩

theorem add_num_eq_zero_iff (hx : x.den = 1) (hy : y.den = 1) : (x.add y).num = 0 ↔ x.value + y.value = 0 := by
  rw [← value_add hx hy, value_eq_zero_iff]
  rw [add_eq]
  exact one_ne_zero

end

end Sys2Proof.Machine
end

section
/-! PROOFS. ADD, SUB, MUL, DIV and CMP in either precision (46 R554 to R558; 45 R504, R507, R508; 92 D34, D35, D40). -/

namespace Sys2Proof.Machine

section
variable {is : List Instr} {f : Operand} {ac : AcField} {op : Exact → Exact → Exact} {s s1 : State} {v a : BitVec 64} {q : ℚ}

/-! ## The four operations -/

/-- Storing an exact number where the FPS is as it was. -/
theorem storeArith_run {n : Fin 6} {fmt : FFormat} {x : Exact} (hfpu : s1.fpu = s.fpu) : storeArith n fmt x s1 =
    .ok () (s1.storeResult n fmt (arithResult x fmt s.chop s.fiv s.fiu)) := by
  rw [← chop_of_fpu hfpu, ← fiv_of_fpu hfpu, ← fiu_of_fpu hfpu]
  rfl

theorem arithFloat_run (hread : readFloatSource f s.precision s = .ok v s1) : arithFloat op ac f s =
    storeArith (acNumber ac) s.precision
      (op (Exact.ofPattern (s.acc (acNumber ac) s.precision)) (Exact.ofPattern v)) s1 := by
  rw [← acc_of_fpu (readFloatSource_ok_fpu hread)]
  exact run_bind_ok hread

/-- The instructions store the rounding of an exact number with this value. -/
def StoresExact (is : List Instr) (ac : AcField) (q : ℚ) (s s1 : State) : Prop :=
  ∀ i ∈ is, ∃ x : Exact, x.value = q ∧ x.den ≠ 0 ∧ exec i s =
    .next (s1.storeResult (acNumber ac) s.precision (arithResult x s.precision s.chop s.fiv s.fiu))

theorem storesExact_arith (h : RunsBody is (arithFloat op ac f)) (hread : readFloatSource f s.precision s = .ok v s1)
    (hq : (op (Exact.ofPattern (s.acc (acNumber ac) s.precision)) (Exact.ofPattern v)).value = q)
    (hden : (op (Exact.ofPattern (s.acc (acNumber ac) s.precision)) (Exact.ofPattern v)).den ≠ 0) :
    StoresExact is ac q s s1 :=
  fun i hi => ⟨_, hq, hden,
    h.next ((arithFloat_run hread).trans (storeArith_run (readFloatSource_ok_fpu hread))) i hi⟩

/-- The same for a table of the instructions and their values. -/
theorem StoresExact.rows {i j : Instr} (h : StoresExact [i, j] ac q s s1) : ∀ row ∈ [(i, q), (j, q)],
    ∃ x : Exact, x.value = row.2 ∧ x.den ≠ 0 ∧ exec row.1 s =
      .next (s1.storeResult (acNumber ac) s.precision (arithResult x s.precision s.chop s.fiv s.fiu)) :=
  List.forall_mem_cons.2 ⟨h i (.head _), List.forall_mem_singleton.2 (h j (.tail _ (.head _)))⟩

theorem divideFloat_zero (hread : readFloatSource f s.precision s = .ok v s1) (hv : v.extractLsb' 55 8 = 0#8) :
    divideFloat ac f s = .error .ended (s1.floatException 4#4) := by
  refine (run_look_bind ..).trans ((run_bind_ok hread).trans ?_)
  rw [if_pos ((isFloatZero_iff v).2 hv)]
  rfl

theorem divideFloat_nonzero (hread : readFloatSource f s.precision s = .ok v s1) (hv : v.extractLsb' 55 8 ≠ 0#8) :
    divideFloat ac f s = storeArith (acNumber ac) s.precision
      ((Exact.ofPattern (s.acc (acNumber ac) s.precision)).div (Exact.ofPattern v)) s1 := by
  rw [← acc_of_fpu (readFloatSource_ok_fpu hread)]
  refine (run_look_bind ..).trans ((run_bind_ok hread).trans ?_)
  rw [if_neg fun h => hv ((isFloatZero_iff v).1 h)]
  rfl

/-! ## CMP -/

/-- The codes of source minus accumulator. -/
def comparisonCodes (v a : BitVec 64) : Cc :=
  ⟨decide (floatValue v - floatValue a < 0), decide (floatValue v - floatValue a = 0), false, false⟩

theorem comparisonCodes_eq (v a : BitVec 64) :
    (⟨((Exact.ofPattern v).add (Exact.ofPattern a).negate).neg,
      decide (((Exact.ofPattern v).add (Exact.ofPattern a).negate).num = 0), false, false⟩ : Cc) = comparisonCodes v a := by
  have hden : (Exact.ofPattern a).negate.den = 1 := den_ofPattern a
  have hvalue : (Exact.ofPattern v).value + (Exact.ofPattern a).negate.value = floatValue v - floatValue a := by
    rw [value_negate, value_ofPattern, value_ofPattern, sub_eq_add_neg]
  rw [comparisonCodes, ← hvalue]
  exact congrArg₂ (fun n z => (⟨n, z, false, false⟩ : Cc)) (add_neg (den_ofPattern v) hden)
    (decide_eq_decide.2 (add_num_eq_zero_iff (den_ofPattern v) hden))

theorem comparisonCodes_zeros (hv : v.extractLsb' 55 8 = 0#8) (ha : a.extractLsb' 55 8 = 0#8) :
    comparisonCodes v a = ⟨false, true, false, false⟩ := by
  rw [comparisonCodes, floatValue_of_zero hv, floatValue_of_zero ha, sub_zero, decide_eq_false (lt_irrefl _), decide_eq_true rfl]

theorem compareFloat_run (hread : readFloatSource f s.precision s = .ok v s1) (ha : a = s.acc (acNumber ac) s.precision) :
    compareFloat ac f s = .ok ()
      (if isFloatZero v && isFloatZero a then (s1.withFcc (comparisonCodes v a)).setAcc (acNumber ac) s.precision 0#64
       else s1.withFcc (comparisonCodes v a)) := by
  rw [← comparisonCodes_eq, ha, ← acc_of_fpu (readFloatSource_ok_fpu hread)]
  exact run_bind_ok hread

theorem bothZero_iff (v a : BitVec 64) : (isFloatZero v && isFloatZero a) = true ↔
    v.extractLsb' 55 8 = 0#8 ∧ a.extractLsb' 55 8 = 0#8 := by
  rw [Bool.and_eq_true, isFloatZero_iff, isFloatZero_iff]

end

/-! ## The names of each body -/

section
variable (f : Operand) (ac : AcField)

theorem runsBody_add : RunsBody [.addf ac f, .addd ac f] (arithFloat Exact.add ac f) := .two (fun _ => rfl) fun _ => rfl
theorem runsBody_sub : RunsBody [.subf ac f, .subd ac f] (arithFloat (fun a v => a.add v.negate) ac f) :=
  .two (fun _ => rfl) fun _ => rfl
theorem runsBody_mul : RunsBody [.mulf ac f, .muld ac f] (arithFloat Exact.mul ac f) := .two (fun _ => rfl) fun _ => rfl
theorem runsBody_div : RunsBody [.divf ac f, .divd ac f] (divideFloat ac f) := .two (fun _ => rfl) fun _ => rfl
theorem runsBody_cmp : RunsBody [.cmpf ac f, .cmpd ac f] (compareFloat ac f) := .two (fun _ => rfl) fun _ => rfl

end

/-- Settles O54: the exact number each operation makes has the value of the rational one, and its rounding is stored. -/
theorem floatArithmetic : Obligations.FloatArithmetic := by
  rintro s s1 f ac _ rfl
  refine ⟨fun e hread => ?_, ?_⟩
  · have harith (op) : arithFloat op ac f s = .error e s1 := (run_look_bind ..).trans (run_bind_error hread)
    exact endsEarly_append ((runsBody_add f ac).endsEarly (harith _)) (endsEarly_append
      ((runsBody_sub f ac).endsEarly (harith _)) (endsEarly_append ((runsBody_mul f ac).endsEarly (harith _))
      (endsEarly_append ((runsBody_div f ac).endsEarly ((run_look_bind ..).trans (run_bind_error hread)))
      ((runsBody_cmp f ac).endsEarly ((run_look_bind ..).trans (run_bind_error hread))))))
  · rintro v _ hread rfl
    have hx := den_ofPattern (s.acc (acNumber ac) s.precision)
    have hy := den_ofPattern v
    have hsum := storesExact_arith (runsBody_add f ac) hread (value_add hx hy) (by rw [add_eq]; exact one_ne_zero)
    have hdifference := storesExact_arith (runsBody_sub f ac) hread (value_add hx (y := (Exact.ofPattern v).negate) hy)
      (by rw [add_eq]; exact one_ne_zero)
    have hproduct := storesExact_arith (runsBody_mul f ac) hread (value_mul hx hy) one_ne_zero
    have hcompare := (runsBody_cmp f ac).next (compareFloat_run hread rfl)
    rw [value_ofPattern, value_ofPattern] at hsum hproduct
    rw [value_negate, value_ofPattern, value_ofPattern, ← sub_eq_add_neg] at hdifference
    have hrows := List.forall_mem_append.2 ⟨hsum.rows, List.forall_mem_append.2 ⟨hdifference.rows, hproduct.rows⟩⟩
    refine ⟨hrows, fun i hi => ⟨fun hv => ?_, fun hv => ?_⟩, fun i hi => ⟨fun hz => ?_, fun hz => ?_⟩⟩
    · refine ⟨_, ?_, num_ofPattern_ne_zero hv, (runsBody_div f ac).next ((divideFloat_nonzero hread hv).trans
        (storeArith_run (readFloatSource_ok_fpu hread))) i hi⟩
      rw [value_div hx hy, value_ofPattern, value_ofPattern]
    · exact (runsBody_div f ac).next_ended (divideFloat_zero hread hv) i hi
    · rw [hcompare i hi, if_pos ((bothZero_iff ..).2 hz), comparisonCodes_zeros hz.1 hz.2]
    · rw [hcompare i hi, if_neg fun h => hz ((bothZero_iff ..).1 h)]
      rfl

end Sys2Proof.Machine
end

section
/-! PROOFS. The true exponent from the range a number lies in, chopping without a carry, integer parts, and the numbers that
rounding leaves exact (45 R503, R507, R508). -/

namespace Sys2Proof.Machine

/-! ## Ranges -/

section
variable {x : Exact}

/-- A power of two that the magnitude reaches is below the true exponent. -/
theorem pow_le_abs_value_iff (hn : x.num ≠ 0) (hd : x.den ≠ 0) (k : ℤ) : (2 : ℚ) ^ k ≤ |x.value| ↔ k < x.trueExponent := by
  obtain ⟨hlow, hhigh⟩ := trueExponent_bounds hn hd
  constructor
  · exact fun h => (zpow_lt_zpow_iff_right₀ one_lt_two).1 (h.trans_lt hhigh)
  · exact fun h => (zpow_le_zpow_right₀ one_le_two (by omega)).trans hlow

/-- The true exponent is the only one with these bounds. -/
theorem trueExponent_unique (hn : x.num ≠ 0) (hd : x.den ≠ 0) {K : ℤ} (hlow : (2 : ℚ) ^ (K - 1) ≤ |x.value|)
    (hhigh : |x.value| < (2 : ℚ) ^ K) : x.trueExponent = K := by
  have hlow' := (pow_le_abs_value_iff hn hd _).1 hlow
  have hhigh' : ¬K < x.trueExponent := fun h => not_le.2 hhigh ((pow_le_abs_value_iff hn hd _).2 h)
  omega

/-! ## Chopping and rounding -/

theorem roundTo_biased (x : Exact) (L : ℕ) (chop : Bool) :
    (roundTo x L chop).biased = x.trueExponent + 128 ∨ (roundTo x L chop).biased = x.trueExponent + 129 := by
  unfold roundTo
  dsimp only
  split
  · exact .inr rfl
  · exact .inl rfl

/-- Chopping never carries out of the fraction. -/
theorem fractionBits_chop_lt (hn : x.num ≠ 0) (hd : x.den ≠ 0) (L : ℕ) : x.fractionBits L true < 2 ^ L := by
  have hfloor := fractionBits_eq_floor hd L true
  obtain ⟨-, hhigh⟩ := scaledMagnitude_bounds hn hd L
  rw [if_pos rfl, add_zero] at hfloor
  have hlt : (x.fractionBits L true : ℤ) < ((2 ^ L : ℕ) : ℤ) := by
    rw [hfloor, Int.floor_lt]
    push_cast
    exact_mod_cast hhigh
  exact_mod_cast hlt

theorem chopPattern_eq_pack (hn : x.num ≠ 0) (hd : x.den ≠ 0) (L : ℕ) : chopPattern x L = (roundTo x L true).pack L := by
  unfold roundTo
  dsimp only
  rw [if_neg (fractionBits_chop_lt hn hd L).ne]
  rfl

/-- A magnitude that is an integer of L bits is kept as it is, chopped or rounded. -/
theorem fractionBits_of_integer (hd : x.den ≠ 0) (chop : Bool) {L m : ℕ}
    (h : |x.value| * (2 : ℚ) ^ ((L : ℤ) - x.trueExponent) = m) : x.fractionBits L chop = m := by
  have hfloor := fractionBits_eq_floor hd L chop
  have hhalf : ⌊(m : ℚ) + (if chop then 0 else 1 / 2)⌋ = m := by
    rw [Int.floor_natCast_add, show ⌊(if chop then 0 else 1 / 2 : ℚ)⌋ = 0 by rw [Int.floor_eq_zero_iff]; split <;> norm_num,
      add_zero]
  rw [h, hhalf] at hfloor
  exact_mod_cast hfloor

/-- Such a number is packed without loss when its exponent is within the limits. -/
theorem floatValue_roundTo_of_integer (hn : x.num ≠ 0) (hd : x.den ≠ 0) (chop : Bool) {L m : ℕ} (hL : L ≤ 55)
    (h : |x.value| * (2 : ℚ) ^ (((L + 1 : ℕ) : ℤ) - x.trueExponent) = m) (h1 : -127 ≤ x.trueExponent)
    (h2 : x.trueExponent ≤ 126) : floatValue ((roundTo x (L + 1) chop).pack (L + 1)) = x.value := by
  have two_ne : (2 : ℚ) ≠ 0 := two_ne_zero
  obtain ⟨hlow, hhigh, hvalue⟩ := roundTo_spec hn hd L chop
  have hbiased := roundTo_biased x (L + 1) chop
  have hmagnitude : ((roundTo x (L + 1) chop).fraction : ℚ) *
      (2 : ℚ) ^ ((roundTo x (L + 1) chop).biased - 128 - (L + 1 : ℕ)) = |x.value| := by
    rw [zpow_sub₀ two_ne, ← mul_div_assoc, hvalue, fractionBits_of_integer hd chop h, ← h, mul_assoc, ← zpow_add₀ two_ne,
      sub_add_cancel, mul_div_assoc, div_self (by positivity), mul_one]
  rw [Rounded.pack, floatValue_packFloat _ (by omega) (by omega) hL hlow hhigh, mul_assoc, hmagnitude, roundTo_neg,
    ← value_eq_sign_mul_abs]

end

/-! ## Integers -/

/-- An integer as an exact number: its sign and its magnitude. -/
def exactWhole (neg : Bool) (n : ℕ) : Exact := ⟨neg, n, 1, 0⟩

theorem value_exactWhole (neg : Bool) (n : ℕ) : (exactWhole neg n).value = (if neg then -1 else 1) * n := by
  show (if neg then -1 else 1) * (n / (1 : ℕ) : ℚ) * 2 ^ (0 : ℤ) = _
  rw [Nat.cast_one, div_one, zpow_zero, mul_one]

theorem abs_value_exactWhole (neg : Bool) (n : ℕ) : |(exactWhole neg n).value| = n := by
  rw [abs_value]
  simp [exactWhole]

/-- Up to `2 ^ L` an integer has no more than L significant bits. -/
theorem exists_fraction_of_le {neg : Bool} {n L : ℕ} (h0 : n ≠ 0) (hn : n ≤ 2 ^ (L + 1)) :
    ∃ m : ℕ, (n : ℚ) * (2 : ℚ) ^ (((L + 1 : ℕ) : ℤ) - (exactWhole neg n).trueExponent) = m := by
  obtain ⟨hlow, hhigh⟩ := trueExponent_bounds (x := exactWhole neg n) h0 one_ne_zero
  rw [abs_value_exactWhole] at hlow hhigh
  generalize (exactWhole neg n).trueExponent = K at hlow hhigh ⊢
  have hn' : (n : ℚ) ≤ 2 ^ ((L + 1 : ℕ) : ℤ) := by
    rw [zpow_natCast]
    exact_mod_cast hn
  by_cases hK : K ≤ (L + 1 : ℕ)
  · obtain ⟨k, hk⟩ := Int.eq_ofNat_of_zero_le (sub_nonneg.2 hK)
    exact ⟨n * 2 ^ k, by rw [hk, zpow_natCast]; push_cast; rfl⟩
  · have hle : K - 1 ≤ (L + 1 : ℕ) := (zpow_le_zpow_iff_right₀ one_lt_two).1 (hlow.trans hn')
    obtain rfl : K = ((L + 1 : ℕ) : ℤ) + 1 := by omega
    rw [add_sub_cancel_right] at hlow
    refine ⟨2 ^ L, ?_⟩
    rw [le_antisymm hn' hlow, ← zpow_add₀ two_ne_zero, Nat.cast_pow, ← zpow_natCast]
    congr 1
    push_cast
    ring

/-- An integer up to `2 ^ L` is exact in L bits. -/
theorem floatValue_roundTo_exactWhole (neg chop : Bool) {n L : ℕ} (hL : L ≤ 55) (h0 : n ≠ 0) (hn : n ≤ 2 ^ (L + 1)) :
    floatValue ((roundTo (exactWhole neg n) (L + 1) chop).pack (L + 1)) = (if neg then -1 else 1) * n := by
  have habs := abs_value_exactWhole neg n
  have hd : (exactWhole neg n).den ≠ 0 := one_ne_zero
  obtain ⟨m, hm⟩ := exists_fraction_of_le (neg := neg) h0 hn
  have hpositive : (2 : ℚ) ^ (0 : ℤ) ≤ |(exactWhole neg n).value| := by
    rw [habs, zpow_zero]
    exact_mod_cast Nat.one_le_iff_ne_zero.2 h0
  have hsmall : |(exactWhole neg n).value| < (2 : ℚ) ^ ((L + 2 : ℕ) : ℤ) := by
    rw [habs, zpow_natCast]
    exact_mod_cast hn.trans_lt (Nat.pow_lt_pow_right (by decide) (Nat.lt_succ_self _))
  have h1 := (pow_le_abs_value_iff h0 hd _).1 hpositive
  have h2 : ¬((L + 2 : ℕ) : ℤ) < (exactWhole neg n).trueExponent :=
    fun h => not_le.2 hsmall ((pow_le_abs_value_iff h0 hd _).2 h)
  rw [← value_exactWhole]
  exact floatValue_roundTo_of_integer h0 hd chop hL (habs ▸ hm) (by omega) (by omega)

/-! ## Integer parts -/

section
variable {x : Exact}

/-- The magnitude of the integer part. -/
theorem truncNat_eq_floor (hd : x.den = 1) : (x.truncNat : ℤ) = ⌊|x.value|⌋ := by
  rw [abs_value, hd, Nat.cast_one, div_one]
  unfold Exact.truncNat
  by_cases hexp : 0 ≤ x.exp
  · obtain ⟨k, hk⟩ := Int.eq_ofNat_of_zero_le hexp
    rw [if_pos hexp, hk, Int.toNat_natCast, zpow_natCast]
    exact_mod_cast (Int.floor_natCast (R := ℚ) (x.num * 2 ^ k)).symm
  · obtain ⟨k, hk⟩ := Int.eq_ofNat_of_zero_le (show 0 ≤ -x.exp by omega)
    rw [if_neg hexp, hk, Int.toNat_natCast, show x.exp = -(k : ℤ) by omega, zpow_neg, zpow_natCast, ← div_eq_mul_inv]
    exact_mod_cast (Rat.floor_natCast_div_natCast x.num (2 ^ k)).symm

/-- What is left of a number without its integer part. -/
theorem value_fractionPart (hd : x.den = 1) :
    (fractionPart x).value = x.value - (if x.neg then -1 else 1) * x.truncNat := by
  unfold fractionPart Exact.value Exact.truncNat
  dsimp only
  rw [hd]
  by_cases hexp : 0 ≤ x.exp
  · obtain ⟨k, hk⟩ := Int.eq_ofNat_of_zero_le hexp
    rw [if_pos hexp, if_pos hexp, hk, Int.toNat_natCast, zpow_natCast]
    push_cast
    ring
  · obtain ⟨k, hk⟩ := Int.eq_ofNat_of_zero_le (show 0 ≤ -x.exp by omega)
    have hsplit : ((x.num % 2 ^ k : ℕ) : ℚ) = x.num - 2 ^ k * (x.num / 2 ^ k : ℕ) := by
      rw [eq_sub_iff_add_eq]
      exact_mod_cast Nat.mod_add_div x.num (2 ^ k)
    rw [if_neg hexp, if_neg hexp, hk, Int.toNat_natCast, hsplit, show x.exp = -(k : ℤ) by omega, zpow_neg, zpow_natCast,
      Nat.cast_one]
    field_simp

theorem den_fractionPart (hd : x.den = 1) : (fractionPart x).den = 1 := hd

end

end Sys2Proof.Machine
end

section
/-! PROOFS. MODF and MODD: the product in each of the ranges of its rule (46 R559; 92 D34, D35; log entries 5 and 20). -/

namespace Sys2Proof.Machine

/-! ## What is stored, range by range -/

/-- The integer part of a product, where it has no more bits than a fraction. -/
def wholePattern (x : Exact) (L : ℕ) : BitVec 64 := chopPattern (exactWhole x.neg x.truncNat) L

section
variable {x : Exact} (fmt : FFormat) (chop fiv fiu : Bool)

theorem modResult_of_zero (h : x.num = 0) : modResult x fmt chop fiv fiu = ⟨0#64, 0#64, false, none, 0⟩ := if_pos h

theorem modResult_of_overflow (hn : x.num ≠ 0) (hK : 127 < x.trueExponent) : modResult x fmt chop fiv fiu =
    if fiv then ⟨chopPattern x fmt.fraction, 0#64, true, some 8#4, 0⟩ else ⟨0#64, 0#64, true, none, 0⟩ :=
  (if_neg hn).trans (if_pos (by omega))

theorem modResult_of_large (hn : x.num ≠ 0) (hK : ¬127 < x.trueExponent) (hL : (fmt.fraction : ℤ) < x.trueExponent) :
    modResult x fmt chop fiv fiu = ⟨chopPattern x fmt.fraction, 0#64, false, none, 0⟩ :=
  (if_neg hn).trans ((if_neg (by omega)).trans (if_pos hL))

theorem modResult_of_mixed (hn : x.num ≠ 0) (h0 : 0 < x.trueExponent) (hL : ¬(fmt.fraction : ℤ) < x.trueExponent) :
    modResult x fmt chop fiv fiu =
      ⟨wholePattern x fmt.fraction,
       if (fractionPart x).num = 0 then 0#64 else (roundTo (fractionPart x) fmt.fraction chop).pack fmt.fraction, false, none,
       if fmt = .d ∧ (fractionPart x).num ≠ 0 then x.truncNat.log2 - 2 else 0⟩ := by
  have hle : fmt.fraction ≤ 56 := by cases fmt <;> decide
  exact (if_neg hn).trans ((if_neg (by omega)).trans ((if_neg hL).trans (if_pos h0)))

section
variable (hn : x.num ≠ 0) (h0 : ¬0 < x.trueExponent)
include hn h0

theorem modResult_of_fraction (hK : -128 < x.trueExponent) : modResult x fmt chop fiv fiu =
    ⟨0#64, (roundTo x fmt.fraction chop).pack fmt.fraction, false, none, 0⟩ :=
  (if_neg hn).trans ((if_neg (by omega)).trans ((if_neg (by omega)).trans ((if_neg h0).trans (if_pos (by omega)))))

theorem modResult_of_underflow (hK : ¬-128 < x.trueExponent) : modResult x fmt chop fiv fiu =
    if fiu then ⟨0#64, packFloat x.neg (x.trueExponent + 128) (roundTo x fmt.fraction chop).fraction fmt.fraction, false,
      some 10#4, 0⟩
    else ⟨0#64, 0#64, false, none, 0⟩ :=
  (if_neg hn).trans ((if_neg (by omega)).trans ((if_neg (by omega)).trans ((if_neg h0).trans (if_neg (by omega)))))

end

end

/-! ## The ranges as the rule states them -/

section
variable {x : Exact}

theorem pow_le_abs_value_iff_nat (hn : x.num ≠ 0) (hd : x.den ≠ 0) (k : ℕ) :
    (2 : ℚ) ^ k ≤ |x.value| ↔ (k : ℤ) < x.trueExponent := by
  rw [← pow_le_abs_value_iff hn hd, zpow_natCast]

theorem one_le_abs_value_iff (hn : x.num ≠ 0) (hd : x.den ≠ 0) : 1 ≤ |x.value| ↔ 0 < x.trueExponent := by
  rw [← pow_le_abs_value_iff hn hd, zpow_zero]

theorem least_le_abs_value_iff (hn : x.num ≠ 0) (hd : x.den ≠ 0) : 1 / 2 ^ 128 ≤ |x.value| ↔ -128 < x.trueExponent := by
  rw [← pow_le_abs_value_iff hn hd, show (-128 : ℤ) = -((128 : ℕ) : ℤ) from rfl, zpow_neg, zpow_natCast, one_div]

theorem num_ne_zero_of_abs_pos {q : ℚ} (hd : x.den ≠ 0) (hq : 0 < q) (h : q ≤ |x.value|) : x.num ≠ 0 := by
  rw [Ne, ← value_eq_zero_iff hd, ← abs_eq_zero]
  exact (hq.trans_le h).ne'

/-- The sign of a number that is not zero. -/
theorem neg_eq_decide (hn : x.num ≠ 0) (hd : x.den ≠ 0) : x.neg = decide (x.value < 0) := by
  rw [Bool.eq_iff_iff, decide_eq_true_eq, value_neg_iff hn hd]

section
variable (fmt : FFormat) (hd : x.den = 1) (h1 : 1 ≤ |x.value|) (hL : |x.value| < 2 ^ fmt.fraction)
include hd h1 hL

/-- The integer part of a product below `2 ^ L` is packed without loss. -/
theorem floatValue_wholePattern :
    floatValue (wholePattern x fmt.fraction) = (if x.neg then -1 else 1) * x.truncNat := by
  have hfloor := truncNat_eq_floor hd
  have h0 : x.truncNat ≠ 0 := by
    have : 1 ≤ (x.truncNat : ℤ) := hfloor ▸ Int.le_floor.2 (by exact_mod_cast h1)
    omega
  have hle : x.truncNat ≤ 2 ^ fmt.fraction := by
    have : (x.truncNat : ℤ) < ((2 ^ fmt.fraction : ℕ) : ℤ) := hfloor ▸ Int.floor_lt.2 (by exact_mod_cast hL)
    exact_mod_cast this.le
  rw [wholePattern, chopPattern_eq_pack h0 one_ne_zero]
  cases fmt with
  | f => exact floatValue_roundTo_exactWhole x.neg true (L := 23) (by decide) h0 hle
  | d => exact floatValue_roundTo_exactWhole x.neg true (L := 55) le_rfl h0 hle

/-- So the fraction part is what the packed integer part leaves. -/
theorem value_fractionPart_eq_sub : (fractionPart x).value = x.value - floatValue (wholePattern x fmt.fraction) := by
  rw [floatValue_wholePattern fmt hd h1 hL, value_fractionPart hd]

theorem fractionPart_num_eq_zero_iff :
    (fractionPart x).num = 0 ↔ x.value = floatValue (wholePattern x fmt.fraction) := by
  rw [← value_eq_zero_iff (den_fractionPart hd ▸ one_ne_zero), value_fractionPart_eq_sub fmt hd h1 hL, sub_eq_zero]

end

end

/-! ## Running it -/

section
variable {f : Operand} {ac : AcField} {s s1 : State} {v : BitVec 64}

/-- What MOD stores, of the product of accumulator and source. -/
def modOf (s : State) (ac : AcField) (v : BitVec 64) : ModResult :=
  modResult ((Exact.ofPattern (s.acc (acNumber ac) s.precision)).mul (Exact.ofPattern v)) s.precision s.chop s.fiv s.fiu

theorem modFloat_run (hread : readFloatSource f s.precision s = .ok v s1) : modFloat ac f s =
    .ok () ((State.setAcc { s1 with draws := s1.draws + 1 } (oddAc ac) s.precision (modOf s ac v).whole).storeResult
      (acNumber ac) s.precision ⟨freeLowBits (modOf s ac v).openBits (modOf s ac v).part (Config.freeQuad s1.draws),
        (modOf s ac v).fv, (modOf s ac v).code⟩) := by
  have hfpu := readFloatSource_ok_fpu hread
  rw [modOf, ← acc_of_fpu hfpu, ← chop_of_fpu hfpu, ← fiv_of_fpu hfpu, ← fiu_of_fpu hfpu]
  exact run_bind_ok hread

theorem runsBody_mod (f : Operand) (ac : AcField) : RunsBody [.modf ac f, .modd ac f] (modFloat ac f) :=
  .two (fun _ => rfl) fun _ => rfl

end

/-- Settles O57: the true exponent decides between the ranges of `modResult`, and the integer part is exact where both parts are
kept. -/
theorem floatModulus : Obligations.FloatModulus := by
  rintro s s1 f ac _ rfl
  refine ⟨fun e hread => (runsBody_mod f ac).endsEarly ((run_look_bind ..).trans (run_bind_error hread)), ?_⟩
  rintro v _ P _ rfl hread rfl hP i hi
  have hx := den_ofPattern (s.acc (acNumber ac) s.precision)
  have hy := den_ofPattern v
  obtain ⟨x, hx'⟩ : ∃ x, x = (Exact.ofPattern (s.acc (acNumber ac) s.precision)).mul (Exact.ofPattern v) := ⟨_, rfl⟩
  have hvalue : x.value = P := by rw [hx', value_mul hx hy, value_ofPattern, value_ofPattern, hP]
  have hden : x.den = 1 := by rw [hx']; rfl
  have hd : x.den ≠ 0 := by rw [hden]; exact one_ne_zero
  have hmod : modOf s ac v = modResult x s.precision s.chop s.fiv s.fiu := by rw [hx', modOf]
  refine ⟨x, _, _, _, _, _, _, hvalue, hden, (runsBody_mod f ac).next (modFloat_run hread) i hi, ?_⟩
  rw [hmod, ← hvalue]
  refine ⟨fun h => ?_, fun h => ?_, fun hlow hhigh => ?_, fun hlow hhigh => ?_, fun hlow hhigh => ?_, fun hpos hhigh => ?_⟩
  · rw [modResult_of_zero _ _ _ _ ((value_eq_zero_iff hd).1 h)]
    exact ⟨rfl, rfl, rfl, rfl, rfl⟩
  · have hn := num_ne_zero_of_abs_pos hd (by positivity) h
    rw [modResult_of_overflow _ _ _ _ hn ((pow_le_abs_value_iff_nat hn hd 127).1 h), ← chopPattern_eq_pack hn hd,
      show s.fpu.fps.getLsbD 9 = s.fiv from rfl]
    cases s.fiv with
    | false => exact ⟨rfl, rfl, rfl, nofun, fun _ => ⟨rfl, rfl⟩⟩
    | true => exact ⟨rfl, rfl, rfl, fun _ => ⟨rfl, rfl⟩, nofun⟩
  · have hn := num_ne_zero_of_abs_pos hd (by positivity) hlow
    rw [modResult_of_large _ _ _ _ hn (fun h => not_le.2 hhigh ((pow_le_abs_value_iff_nat hn hd 127).2 h))
      ((pow_le_abs_value_iff_nat hn hd _).1 hlow)]
    exact ⟨chopPattern_eq_pack hn hd _, rfl, rfl, rfl, rfl⟩
  · have hn := num_ne_zero_of_abs_pos hd one_pos hlow
    rw [modResult_of_mixed _ _ _ _ hn ((one_le_abs_value_iff hn hd).1 hlow)
      (fun h => not_le.2 hhigh ((pow_le_abs_value_iff_nat hn hd _).2 h))]
    have hzero := fractionPart_num_eq_zero_iff s.precision hden hlow hhigh
    refine ⟨?_, rfl, rfl, fun h => ⟨if_pos (hzero.2 h), if_neg fun h' => h'.2 (hzero.2 h)⟩, fun h => ⟨?_, _,
      value_fractionPart_eq_sub s.precision hden hlow hhigh, den_fractionPart hden, if_neg fun h' => h (hzero.1 h')⟩⟩
    · simp only [floatValue_wholePattern s.precision hden hlow hhigh, value_neg_iff hn hd, ← truncNat_eq_floor hden,
        Int.cast_natCast]
    · have hfraction : (fractionPart x).num ≠ 0 := fun h' => h (hzero.1 h')
      rw [← truncNat_eq_floor hden, Int.toNat_natCast]
      simp only [hfraction, ne_eq, not_false_eq_true, and_true]
  · have hn := num_ne_zero_of_abs_pos hd (by positivity) hlow
    rw [modResult_of_fraction _ _ _ _ hn (fun h => not_le.2 hhigh ((one_le_abs_value_iff hn hd).2 h))
      ((least_le_abs_value_iff hn hd).1 hlow)]
    exact ⟨rfl, rfl, rfl, rfl, rfl⟩
  · have hn := num_ne_zero_of_abs_pos hd hpos le_rfl
    have hleast : ¬-128 < x.trueExponent := fun h => not_le.2 hhigh ((least_le_abs_value_iff hn hd).2 h)
    rw [modResult_of_underflow _ _ _ _ hn (by omega) hleast, show s.fpu.fps.getLsbD 10 = s.fiu from rfl]
    cases s.fiu with
    | false => exact ⟨rfl, rfl, rfl, nofun, fun _ => ⟨rfl, rfl⟩⟩
    | true =>
      refine ⟨rfl, rfl, rfl, fun _ => ⟨rfl, fun K hK hK' => ?_⟩, nofun⟩
      rw [← neg_eq_decide hn hd, ← trueExponent_unique hn hd hK hK']
      rfl

end Sys2Proof.Machine
end

section
/-! PROOFS. LDEXP and STEXP: the exponent field of an accumulator (46 R560, R561; 45 R509, R530; 92 D6, D21, D34, D39). -/

namespace Sys2Proof.Machine

/-! ## The exponent field of an accumulator -/

/-- A pattern with another exponent field: the sign and the fraction stay. -/
def withExponent (v : BitVec 64) (e : BitVec 8) : BitVec 64 := v.extractLsb' 63 1 ++ e ++ v.extractLsb' 0 55

theorem sign_withExponent (v : BitVec 64) (e : BitVec 8) : (withExponent v e).extractLsb' 63 1 = v.extractLsb' 63 1 :=
  (BitVec.extractLsb'_append_eq_of_le (by decide)).trans BitVec.extractLsb'_append_eq_left

theorem exponent_withExponent (v : BitVec 64) (e : BitVec 8) : (withExponent v e).extractLsb' 55 8 = e :=
  (BitVec.extractLsb'_append_eq_of_le (by decide)).trans BitVec.extractLsb'_append_eq_right

theorem fraction_append (hi lo : BitVec 32) : (hi ++ lo).extractLsb' 0 55 = hi.extractLsb' 0 23 ++ lo := by
  refine BitVec.eq_of_getLsbD_eq fun i hi => ?_
  rw [BitVec.getLsbD_extractLsb', BitVec.getLsbD_append, BitVec.getLsbD_append, BitVec.getLsbD_extractLsb', zero_add]
  by_cases h : i < 32
  · simp [h, hi]
  · simp [h, show i < 55 from hi, show i - 32 < 23 by omega]

/-- The field lies in the high long of an accumulator. -/
theorem withExponent_append (hi lo : BitVec 32) (e : BitVec 8) :
    (hi.extractLsb' 31 1 ++ e ++ hi.extractLsb' 0 23) ++ lo = withExponent (hi ++ lo) e := by
  have hsign : (hi ++ lo).extractLsb' 63 1 = hi.extractLsb' 31 1 := BitVec.extractLsb'_append_eq_of_le (by decide)
  rw [withExponent, hsign, fraction_append]
  exact BitVec.append_assoc (x₁ := hi.extractLsb' 31 1 ++ e) (x₂ := hi.extractLsb' 0 23) (x₃ := lo)

section
variable (s : State) (n : Fin 6) (e : BitVec 8)

theorem get_ac_setExponent_ne {m : Fin 6} (h : m ≠ n) : (s.setExponent n e).fpu.ac.get m = s.fpu.ac.get m :=
  (get_set ..).trans (if_neg h)

/-- In either format the accumulator has the new exponent field. -/
theorem acc_setExponent (fmt : FFormat) : (s.setExponent n e).acc n fmt = withExponent (s.acc n fmt) e := by
  have hac : (s.setExponent n e).fpu.ac.get n = _ := (get_set ..).trans (if_pos rfl)
  cases fmt <;> simp only [State.acc, hac, withExponent_append]

end

theorem ofInt_eq_zero_iff (m : ℤ) : BitVec.ofInt 8 m = 0#8 ↔ m % 256 = 0 := by
  rw [← BitVec.toNat_inj, BitVec.toNat_ofInt, BitVec.toNat_zero]
  omega

/-- The codes of an accumulator after its exponent field was written. -/
theorem floatCc_bits_setExponent (s : State) (n : Fin 6) (m : ℤ) (fmt : FFormat) (fv : Bool) :
    (floatCc ((s.setExponent n (BitVec.ofInt 8 m)).acc n fmt) fv false).bits =
      (s.acc n .d).extractLsb' 63 1 ++ BitVec.ofBool (decide (m % 256 = 0)) ++ BitVec.ofBool fv ++ 0#1 := by
  have hsign : (s.acc n fmt).extractLsb' 63 1 = (s.acc n .d).extractLsb' 63 1 := by
    cases fmt with
    | f => exact (BitVec.extractLsb'_append_eq_of_le (by decide)).trans (BitVec.extractLsb'_append_eq_of_le (by decide)).symm
    | d => rfl
  rw [floatCc_bits, acc_setExponent, sign_withExponent, exponent_withExponent, hsign, decide_eq_decide.2 (ofInt_eq_zero_iff m)]

theorem floatCc_zero (fv : Bool) : floatCc 0#64 fv false = ⟨false, true, fv, false⟩ := rfl

theorem acc_setAcc_zero (s : State) (n : Fin 6) (fmt : FFormat) : (s.setAcc n fmt 0#64).acc n fmt = 0#64 := by
  cases fmt with
  | f => exact acc_setAcc_f s n 0#64
  | d => exact acc_setAcc_d s n 0#64

/-! ## LDEXP -/

section
variable {s : State} {ac : Fin 6} {n : ℤ}

/-- What LDEXP leaves when it writes the exponent field, before the codes. -/
def State.exponentLoaded (s : State) (ac : Fin 6) (n : ℤ) : State := s.setExponent ac (BitVec.ofInt 8 (n + 128))

/-- The codes of the accumulator that LDEXP leaves. -/
theorem floatCc_bits_exponentLoaded (s : State) (ac : Fin 6) (n : ℤ) (fmt : FFormat) (fv : Bool) :
    (floatCc ((s.exponentLoaded ac n).acc ac fmt) fv false).bits =
      (s.acc ac .d).extractLsb' 63 1 ++ BitVec.ofBool (decide ((n + 128) % 256 = 0)) ++ BitVec.ofBool fv ++ 0#1 :=
  floatCc_bits_setExponent s ac (n + 128) fmt fv

theorem loadExponent_within (h1 : -127 ≤ n) (h2 : n ≤ 127) : s.loadExponent ac n =
    (s.exponentLoaded ac n).withFcc (floatCc ((s.exponentLoaded ac n).acc ac s.precision) false false) := by
  simp only [State.loadExponent, if_neg (show ¬127 < n by omega), if_neg (show ¬n < -127 by omega)]
  rfl

theorem loadExponent_over (h : 127 < n) (hfiv : s.fiv = false) : s.loadExponent ac n =
    (s.setAcc ac s.precision 0#64).withFcc ⟨false, true, true, false⟩ := by
  simp only [State.loadExponent, if_pos h, hfiv, Bool.false_eq_true, if_false, acc_setAcc_zero, floatCc_zero]

theorem loadExponent_under (h : n < -127) (hfiu : s.fiu = false) : s.loadExponent ac n =
    (s.setAcc ac s.precision 0#64).withFcc ⟨false, true, false, false⟩ := by
  simp only [State.loadExponent, if_neg (show ¬127 < n by omega), if_pos h, hfiu, Bool.false_eq_true, if_false,
    acc_setAcc_zero, floatCc_zero]

/-- With its trap enabled an exponent out of range is written modulo 256, and the exception is raised. -/
theorem loadExponent_trap {tooBig : Bool} {code : BitVec 4}
    (h : 127 < n ∧ s.fiv = true ∧ tooBig = true ∧ code = 8#4 ∨ n < -127 ∧ s.fiu = true ∧ tooBig = false ∧ code = 10#4) :
    s.loadExponent ac n = ((s.exponentLoaded ac n).floatException code).withFcc
      (floatCc (((s.exponentLoaded ac n).floatException code).acc ac s.precision) tooBig false) := by
  rcases h with ⟨h, htrap, rfl, rfl⟩ | ⟨h, htrap, rfl, rfl⟩
  · simp only [State.loadExponent, if_pos h, htrap, if_true]
    rfl
  · simp only [State.loadExponent, if_neg (show ¬127 < n by omega), if_pos h, htrap, if_true]
    rfl

theorem acc_exponentLoaded (s : State) (ac : Fin 6) (n : ℤ) :
    (s.exponentLoaded ac n).acc ac .d = withExponent (s.acc ac .d) (BitVec.ofInt 8 (n + 128)) := acc_setExponent ..

end

/-! ## The state LDEXP leaves -/

theorem append_codes (fps : BitVec 12) (sign : BitVec 1) (z v : Bool) :
    fps ++ (sign ++ BitVec.ofBool z ++ BitVec.ofBool v ++ 0#1) = fps ++ sign ++ BitVec.ofBool z ++ BitVec.ofBool v ++ 0#1 := by
  simp only [BitVec.append_assoc, BitVec.cast_eq]

section
variable (s : State) (ac : Fin 6) (n : ℤ)

theorem floatException_ac (code : BitVec 4) : (s.floatException code).fpu.ac = s.fpu.ac := by rw [floatException_eq]

/-- A floating exception and then the codes. -/
theorem floatException_withFcc (code : BitVec 4) (k : Cc) : (s.floatException code).withFcc k = { s with
    fpu := { ac := s.fpu.ac, fec := code, fea := s.flow.instrAddr
             fps := (s.fpu.fps ||| 0o100000#16).extractLsb' 4 12 ++ k.bits }
    flow := { s.flow with pendFp := s.flow.pendFp || !s.fpu.fps.getLsbD 14 } } := by
  rw [withFcc_eq, floatException_eq]

/-- Within the limits: the accumulator, its sign as FN and no other code. -/
theorem exponentLoaded_withFcc (h1 : -127 ≤ n) (h2 : n ≤ 127) {t : State}
    (ht : t = (s.exponentLoaded ac n).withFcc (floatCc ((s.exponentLoaded ac n).acc ac s.precision) false false)) :
    t = { s with fpu := { s.fpu with
      ac := t.fpu.ac, fps := s.fpu.fps.extractLsb' 4 12 ++ (s.acc ac .d).extractLsb' 63 1 ++ 0#3 } } := by
  have hcodes : s.fpu.fps.extractLsb' 4 12 ++ (floatCc ((s.exponentLoaded ac n).acc ac s.precision) false false).bits =
      s.fpu.fps.extractLsb' 4 12 ++ (s.acc ac .d).extractLsb' 63 1 ++ 0#3 := by
    rw [floatCc_bits_exponentLoaded, decide_eq_false (show ¬(n + 128) % 256 = 0 by omega)]
    simp only [BitVec.append_assoc, BitVec.cast_eq]
    rfl
  rw [← hcodes, ht, withFcc_eq]
  rfl

/-- With a trap: also what the exception records and requests, and the codes of the wrapped exponent. -/
theorem exponentLoaded_floatException_withFcc (tooBig : Bool) (code : BitVec 4) {t : State}
    (ht : t = ((s.exponentLoaded ac n).floatException code).withFcc
      (floatCc (((s.exponentLoaded ac n).floatException code).acc ac s.precision) tooBig false)) :
    t = { s with
      fpu := { ac := t.fpu.ac, fec := code, fea := s.flow.instrAddr
               fps := (s.fpu.fps ||| 0o100000#16).extractLsb' 4 12 ++ (s.acc ac .d).extractLsb' 63 1 ++
                 BitVec.ofBool (decide ((n + 128) % 256 = 0)) ++ BitVec.ofBool tooBig ++ 0#1 }
      flow := { s.flow with pendFp := s.flow.pendFp || !s.fpu.fps.getLsbD 14 } } := by
  have hac : t.fpu.ac = (s.exponentLoaded ac n).fpu.ac := by rw [ht, floatException_withFcc]
  rw [hac, ht, floatException_withFcc, acc_congr (floatException_ac _ code), floatCc_bits_exponentLoaded, append_codes]
  rfl

end

/-! ## STEXP -/

section
variable {f : Operand} {ac : AcField} {s s1 t : State} {p : Place} {b : Bool}

/-- The exponent less 128, from either format. -/
theorem exponent_word (s : State) (n : Fin 6) (fmt : FFormat) :
    (exponentField (s.acc n fmt)).setWidth 16 - 0o200#16 =
      BitVec.ofInt 16 (((s.acc n .d).extractLsb' 55 8).toNat - 128) := by
  have hfield : exponentField (s.acc n fmt) = (s.acc n .d).extractLsb' 55 8 := by
    cases fmt with
    | f => exact (BitVec.extractLsb'_append_eq_of_le (by decide)).trans (BitVec.extractLsb'_append_eq_of_le (by decide)).symm
    | d => rfl
  rw [hfield, Int.sub_eq_add_neg, BitVec.ofInt_add, BitVec.ofInt_natCast, BitVec.ofNat_toNat]
  exact (add_ofInt_neg _ 128).symm

/-- STEXP once its destination is evaluated. -/
def writeExponent (p : Place) (n : Word) : M Unit := do
  let wrotePs ← writePlace .word p n
  update fun s => s.withFcc (Cc.of n false false)
  setCc wrotePs (Cc.of n false false)

theorem storeExp_run (hplace : place .word f s = .ok p s1) : storeExp ac f s =
    writeExponent p (BitVec.ofInt 16 (((s.acc (acNumber ac) .d).extractLsb' 55 8).toNat - 128)) s1 := by
  rw [← exponent_word s _ s1.precision, ← acc_of_fpu (place_ok_fpu hplace)]
  exact run_bind_ok hplace

theorem writeExponent_ok {n : Word} (hwrite : writePlace .word p n s = .ok b t) : writeExponent p n s =
    .ok () ((t.withFcc (codes n false false)).finish b (codes n false false)) := run_bind_ok hwrite

end

/-- Settles O58: LDEXP is one of four updates of the state, each with the codes of the pattern it leaves. -/
theorem exponentMoves : Obligations.ExponentMoves := by
  intro s s1 f ac
  have hldexp : RunsBody [.ldexp ac f] (loadExp ac f) := .one fun _ => rfl
  have hstexp : RunsBody [.stexp ac f] (storeExp ac f) := .one fun _ => rfl
  refine ⟨fun v hread => ?_, ?_, fun e u => ⟨fun hread => hldexp.endsEarly (run_bind_error hread),
    fun hplace => hstexp.endsEarly (run_bind_error hplace), ?_⟩⟩
  · have hrun : exec (.ldexp ac f) s = .next (s1.loadExponent (acNumber ac) v.toInt) :=
      hldexp.next_one (run_bind_ok hread)
    rw [hrun]
    refine ⟨fun h1 h2 => ⟨_, rfl, ?_⟩, fun h hfiv => ?_, fun h hfiu => ?_, fun tooBig code h => ⟨_, rfl, ?_⟩⟩
    · rw [loadExponent_within h1 h2]
      exact ⟨acc_exponentLoaded .., fun m hm => get_ac_setExponent_ne s1 _ _ hm, exponentLoaded_withFcc s1 _ _ h1 h2 rfl⟩
    · rw [loadExponent_over h hfiv]
    · rw [loadExponent_under h hfiu]
    · rw [loadExponent_trap h]
      refine ⟨?_, fun m hm => ?_, exponentLoaded_floatException_withFcc s1 _ _ tooBig code rfl⟩
      · exact (acc_congr (floatException_ac _ code) _ _).trans (acc_exponentLoaded ..)
      · exact (congrArg (·.get m) (floatException_ac _ code)).trans (get_ac_setExponent_ne s1 _ _ hm)
  · rintro p n b t hplace rfl hwrite
    exact hstexp.next_one ((storeExp_run hplace).trans (writeExponent_ok hwrite))
  · rintro p n hplace rfl hwrite
    exact hstexp.endsEarly ((storeExp_run hplace).trans (run_bind_error hwrite))

end Sys2Proof.Machine
end

section
/-! PROOFS. The integers that the conversions read and write: a word, or two of which a register or an immediate has the high one
(46 R562, R563; 45 R521 to R523). -/

namespace Sys2Proof.Machine

/-! ## Reading -/

theorem toInt_two_words (high low : Word) : (high ++ low).toInt = high.toInt * 65536 + low.toNat := by
  rw [BitVec.toInt_append, if_neg (by decide), mul_comm]
  rfl

theorem toInt_high_word (high : Word) : (high ++ 0#16).toInt = high.toInt * 65536 := by
  rw [toInt_two_words]
  exact Int.add_zero _

/-- The long integer in the top of a pattern. -/
theorem long_packWords_one (s : State) (a : Word) :
    (packWords (s.wordsAt a 1)).extractLsb' 32 32 = s.word a ++ 0#16 := by
  have hzeros : s.word a ++ 0#48 = s.word a ++ 0#16 ++ 0#32 :=
    (BitVec.append_assoc (x₁ := s.word a) (x₂ := 0#16) (x₃ := 0#32)).symm
  rw [packWords_wordsAt_one, hzeros]
  exact BitVec.extractLsb'_append_eq_left

theorem long_packWords_two (s : State) (a : Word) :
    (packWords (s.wordsAt a 2)).extractLsb' 32 32 = s.word a ++ s.word (a + 2#16) := by
  rw [show s.wordsAt a 2 = s.wordsAt a FFormat.f.words from rfl, packWords_wordsAt]
  exact BitVec.extractLsb'_append_eq_left

section
variable {f : Operand} {s s1 t : State} {sp : Space} {a : Word} {n : ℤ}

theorem readInteger_word (hFL : s.fpu.fps.getLsbD 6 = false) :
    readInteger f s = (readOp .word f >>= fun w => (pure w.toInt : M ℤ)) s := by
  rw [readInteger, run_look_bind, hFL]
  rfl

theorem readInteger_register (hFL : s.fpu.fps.getLsbD 6 = true) (hm : f.mode = .register) :
    readInteger f s = .ok ((s.reg f.reg).toInt * 65536) s := by
  rw [readInteger, run_look_bind, hFL, if_pos rfl, if_pos hm, ← toInt_high_word]
  rfl

theorem readInteger_memory (hFL : s.fpu.fps.getLsbD 6 = true) (hm : f.mode ≠ .register) : readInteger f s =
    (readLong f 2 >>= fun x => (pure (x.2.2.extractLsb' 32 32).toInt : M ℤ)) s := by
  rw [readInteger, run_look_bind, hFL, if_pos rfl, if_neg hm]

/-- From plain storage: the words that the operand moves. -/
theorem readLong_plain (n : ℕ) (haddress : effectiveAddress f (2 * n) s = .ok (sp, a) s1)
    (hplain : ∀ k, k < wordsMoved f n → s1.PlainAt (a + BitVec.ofNat 16 (2 * k))) :
    readLong f n s = .ok (sp, a, packWords (s1.wordsAt a (wordsMoved f n))) s1 := by
  rw [readLong, run_bind_ok haddress]
  exact run_bind_ok (readWords_plain sp _ s1 a hplain)

theorem readInteger_plain_one (hFL : s.fpu.fps.getLsbD 6 = true) (hm : f.mode ≠ .register)
    (haddress : effectiveAddress f 4 s = .ok (sp, a) s1) (hplain : s1.PlainAt a) (hf : MovesOneWord f) :
    readInteger f s = .ok ((s1.word a).toInt * 65536) s1 := by
  have hwords (k : ℕ) (hk : k < 1) : s1.PlainAt (a + BitVec.ofNat 16 (2 * k)) := by
    obtain rfl : k = 0 := by omega
    rwa [mul_zero, BitVec.add_zero]
  have hlong := readLong_plain 2 haddress (by rwa [wordsMoved_one 2 hf])
  rw [readInteger_memory hFL hm, run_bind_ok hlong, wordsMoved_one 2 hf, long_packWords_one, toInt_high_word]
  rfl

theorem readInteger_plain_two (hFL : s.fpu.fps.getLsbD 6 = true) (hm : f.mode ≠ .register)
    (haddress : effectiveAddress f 4 s = .ok (sp, a) s1) (hplain : s1.PlainAt a) (hplain' : s1.PlainAt (a + 2#16))
    (hf : ¬MovesOneWord f) :
    readInteger f s = .ok ((s1.word a).toInt * 65536 + (s1.word (a + 2#16)).toNat) s1 := by
  have hwords (k : ℕ) (hk : k < 2) : s1.PlainAt (a + BitVec.ofNat 16 (2 * k)) := by
    obtain rfl | rfl : k = 0 ∨ k = 1 := by omega
    · rwa [mul_zero, BitVec.add_zero]
    · exact hplain'
  have hlong := readLong_plain 2 haddress (by rwa [wordsMoved_all 2 hf])
  rw [readInteger_memory hFL hm, run_bind_ok hlong, wordsMoved_all 2 hf, long_packWords_two, toInt_two_words]
  rfl

/-- Reading an integer leaves the floating-point unit. -/
theorem readInteger_ok_fpu (h : readInteger f s = .ok n t) : t.fpu = s.fpu := by
  cases hFL : s.fpu.fps.getLsbD 6 with
  | false =>
    rw [readInteger_word hFL] at h
    obtain ⟨w, u, hread, hpure⟩ := bind_eq_ok h
    cases hpure
    exact readOp_ok_fpu hread
  | true =>
    by_cases hm : f.mode = .register
    · rw [readInteger_register hFL hm] at h
      cases h
      rfl
    · rw [readInteger_memory hFL hm] at h
      obtain ⟨x, u, hread, hpure⟩ := bind_eq_ok h
      cases hpure
      exact readLong_ok_fpu hread

end

/-! ## Writing -/

section
variable {f : Operand} {s s1 : State} {sp : Space} {a : Word}

theorem writeInteger_word_register (n : BitVec 32) (s : State) (hm : f.mode = .register) :
    writeInteger f false n s = .ok false (s.setReg f.reg (n.extractLsb' 0 16)) :=
  run_bind_ok (place_register .word s hm)

theorem writeInteger_long_register (n : BitVec 32) (s : State) (hm : f.mode = .register) :
    writeInteger f true n s = .ok false (s.setReg f.reg (n.extractLsb' 16 16)) := congrFun (if_pos hm) s

theorem writeInteger_word_plain (n : BitVec 32) (hm : f.mode ≠ .register)
    (haddress : effectiveAddress f 2 s = .ok (sp, a) s1) (hplain : s1.PlainAt a) :
    writeInteger f false n s = .ok false (s1.putWord a (n.extractLsb' 0 16)) := by
  have hplace : place .word f s = .ok (.mem sp a) s1 := (place_memory .word s hm).trans (run_bind_ok haddress)
  exact (run_bind_ok hplace).trans (writePlace_plain hplain sp _)

/-- In memory a long integer is an operand of two words. -/
theorem writeInteger_long_memory (n : BitVec 32) (hm : f.mode ≠ .register)
    (haddress : effectiveAddress f 4 s = .ok (sp, a) s1) : writeInteger f true n s =
      writeLongAt f 2 sp a (n.extractLsb' 16 16 ++ n.extractLsb' 0 16 ++ 0#32) s1 := by
  have hlong : writeInteger f true n = writeLong f 2 (n ++ 0#32) := if_neg hm
  rw [hlong, BitVec.extractLsb'_append_extractLsb' (w := 16) (len := 16)]
  exact run_bind_ok haddress

theorem writeInteger_long_plain_one (n : BitVec 32) (hm : f.mode ≠ .register)
    (haddress : effectiveAddress f 4 s = .ok (sp, a) s1) (hplain : s1.PlainAt a) (hf : MovesOneWord f) :
    writeInteger f true n s = .ok false (s1.putWord a (n.extractLsb' 16 16)) := by
  rw [writeInteger_long_memory n hm haddress, writeLongAt_one hf]
  exact writeWords_one_ok (writePlace_plain hplain sp _)

theorem writeInteger_long_plain_two (n : BitVec 32) (hm : f.mode ≠ .register)
    (haddress : effectiveAddress f 4 s = .ok (sp, a) s1) (hplain : s1.PlainAt a) (hplain' : s1.PlainAt (a + 2#16))
    (hf : ¬MovesOneWord f) : writeInteger f true n s =
      .ok false ((s1.putWord a (n.extractLsb' 16 16)).putWord (a + 2#16) (n.extractLsb' 0 16)) := by
  rw [writeInteger_long_memory n hm haddress, writeLongAt_two hf]
  have hsecond : (s1.putWord a (n.extractLsb' 16 16)).PlainAt (a + 2#16) := hplain'.congr rfl rfl rfl
  exact writeWords_cons_ok (writePlace_plain hplain sp _) (writeWords_one_ok (writePlace_plain hsecond sp _))

end

end Sys2Proof.Machine
end

section
/-! PROOFS. LDCIF, LDCID, LDCLF, LDCLD, STCFI, STCFL, STCDI and STCDL (46 R562, R563; 45 R505, R507; 92 D6, D21). -/

namespace Sys2Proof.Machine

/-! ## Loading -/

/-- What loading an integer stores. -/
def integerPattern (n : ℤ) (fmt : FFormat) (chop : Bool) : BitVec 64 :=
  if n = 0 then 0#64 else (roundTo (Exact.ofInt n) fmt.fraction chop).pack fmt.fraction

theorem floatValue_zero : floatValue 0#64 = 0 := floatValue_of_zero (by decide)

/-- An integer with no more bits than the fraction is loaded exactly. -/
theorem floatValue_integerPattern {n : ℤ} {fmt : FFormat} (chop : Bool) (hn : n.natAbs ≤ 2 ^ fmt.fraction) :
    floatValue (integerPattern n fmt chop) = n := by
  unfold integerPattern
  split
  case isTrue h => rw [floatValue_zero, h, Int.cast_zero]
  case isFalse h =>
    have h0 : n.natAbs ≠ 0 := Int.natAbs_ne_zero.2 h
    refine Eq.trans ?_ (signed_natAbs n)
    cases fmt with
    | f => exact floatValue_roundTo_exactWhole _ chop (L := 23) (by decide) h0 hn
    | d => exact floatValue_roundTo_exactWhole _ chop (L := 55) le_rfl h0 hn

theorem fitsFraction {n : ℕ} {fmt : FFormat} (h : n ≤ 2 ^ 24 ∨ fmt = .d ∧ n ≤ 2 ^ 31) : n ≤ 2 ^ fmt.fraction := by
  have hle : 2 ^ 24 ≤ 2 ^ 56 ∧ 2 ^ 31 ≤ 2 ^ 56 := by decide
  cases fmt with
  | f => exact h.resolve_right nofun
  | d => exact h.elim (fun h => h.trans hle.1) fun h => h.2.trans hle.2

section
variable {f : Operand} {ac : AcField} {s s1 : State} {n : ℤ}

theorem loadInteger_run (hread : readInteger f s = .ok n s1) : loadInteger ac f s =
    .ok () (s1.storeResult (acNumber ac) s.precision ⟨integerPattern n s.precision s.chop, false, none⟩) := by
  have hfpu := readInteger_ok_fpu hread
  refine (run_bind_ok hread).trans ?_
  rw [run_look_bind, run_update, precision_of_fpu hfpu, chop_of_fpu hfpu, integerPattern]
  split <;> rfl

end

/-! ## Storing -/

/-- The number truncated toward zero. -/
theorem trunc_eq_floor {x : Exact} (hd : x.den = 1) :
    x.trunc = if x.value < 0 then -⌊-x.value⌋ else ⌊x.value⌋ := by
  have hsign := value_eq_sign_mul_abs x
  have hnonneg := abs_nonneg x.value
  rw [Exact.trunc, truncNat_eq_floor hd]
  cases hneg : x.neg with
  | false =>
    rw [hneg, if_neg Bool.false_ne_true, one_mul] at hsign
    rw [if_neg Bool.false_ne_true, if_neg (by linarith), ← hsign]
  | true =>
    rw [hneg, if_pos rfl, neg_one_mul] at hsign
    rw [if_pos rfl]
    by_cases h : x.value < 0
    · rw [if_pos h, abs_of_neg h]
    · have hzero : x.value = 0 := by linarith
      rw [if_neg h, hzero]
      simp

theorem integerLimit_eq (long : Bool) : integerLimit long = if long then 2147483647 else 32767 := by
  cases long <;> rfl

/-- The codes of a stored integer, and exception 6 where it was out of range. -/
def finishInteger (ok : Bool) (r : ℤ) (b : Bool) : M Unit := do
  update fun s => s.withFcc ⟨decide (r < 0), decide (r = 0), false, !ok⟩
  setCc b ⟨decide (r < 0), decide (r = 0), false, !ok⟩
  update fun s => if !ok && s.fic then s.floatException 6#4 else s

section
variable {f : Operand} {ac : AcField} {s t : State} {n r limit : ℤ} {ok long : Bool}

theorem storeInteger_run (hn : n = (Exact.ofPattern (s.acc (acNumber ac) s.precision)).trunc)
    (hlong : long = s.fpu.fps.getLsbD 6) (hlimit : limit = if long then 2147483647 else 32767)
    (hok : ok = decide (-limit ≤ n ∧ n ≤ limit)) (hr : r = if ok then n else 0) : storeInteger ac f s =
    (writeInteger f long (BitVec.ofInt 32 r) >>= finishInteger ok r) s := by
  rw [← integerLimit_eq] at hlimit
  subst hr hok hlimit hlong hn
  rfl

theorem finishInteger_run (ok : Bool) (r : ℤ) (b : Bool) {u : State}
    (hu : u = (t.withFcc ⟨decide (r < 0), decide (r = 0), false, !ok⟩).finish b ⟨decide (r < 0), decide (r = 0), false, !ok⟩) :
    finishInteger ok r b t =
      .ok () (if ok = false ∧ u.fpu.fps.getLsbD 8 = true then u.floatException 6#4 else u) := by
  have hcondition : ((!ok && u.fic) = true) = (ok = false ∧ u.fpu.fps.getLsbD 8 = true) := by
    rw [Bool.and_eq_true, Bool.not_eq_true']
    rfl
  simp only [← hcondition]
  rw [hu]
  rfl

/-- The accumulator truncated toward zero. -/
theorem trunc_ofPattern (v : BitVec 64) : (Exact.ofPattern v).trunc =
    if floatValue v < 0 then -⌊-floatValue v⌋ else ⌊floatValue v⌋ := by
  rw [trunc_eq_floor (den_ofPattern v), value_ofPattern]

end

/-! ## The names of each body -/

section
variable (f : Operand) (ac : AcField)

theorem runsBody_loadInteger : RunsBody [.ldcif ac f, .ldcid ac f, .ldclf ac f, .ldcld ac f] (loadInteger ac f) :=
  .cons (fun _ => rfl) (.cons (fun _ => rfl) (.two (fun _ => rfl) fun _ => rfl))

theorem runsBody_storeInteger : RunsBody [.stcfi ac f, .stcfl ac f, .stcdi ac f, .stcdl ac f] (storeInteger ac f) :=
  .cons (fun _ => rfl) (.cons (fun _ => rfl) (.two (fun _ => rfl) fun _ => rfl))

end

/-- Settles O59: the integer is read or written as its words, and rounding or truncating it is exact arithmetic. -/
theorem integerConversions : Obligations.IntegerConversions := by
  rintro s s1 t f ac _ rfl
  refine ⟨fun n hread i hi => ⟨_, rfl, fun hn => ?_, (runsBody_loadInteger f ac).next (loadInteger_run hread) i hi⟩,
    fun hFL v hread => (readInteger_word hFL).trans (run_bind_ok hread), readInteger_register,
    fun hFL hm sp a haddress hplain => ⟨fun hf => ?_, fun hf hplain' => ?_⟩,
    fun n hm => ⟨writeInteger_word_register n s hm, writeInteger_long_register n s hm⟩,
    fun n sp a hm => writeInteger_word_plain n hm,
    fun n sp a hm haddress hplain => ⟨writeInteger_long_plain_one n hm haddress hplain,
      fun hf hplain' => writeInteger_long_plain_two n hm haddress hplain hplain' hf⟩, ?_,
    fun e => ⟨fun hread => (runsBody_loadInteger f ac).endsEarly (run_bind_error hread),
      fun hFL hread => (readInteger_word hFL).trans (run_bind_error hread), fun hFL hm haddress => ?_, ?_⟩⟩
  · exact floatValue_integerPattern s.chop (fitsFraction hn)
  · exact readInteger_plain_one hFL hm haddress hplain hf
  · exact readInteger_plain_two hFL hm haddress hplain hplain' hf
  · rintro q n r limit b long ok rfl hn hlong hlimit hok hr hwrite i hi u hu
    rw [← trunc_ofPattern] at hn
    exact (runsBody_storeInteger f ac).next
      ((storeInteger_run hn hlong hlimit hok hr).trans ((run_bind_ok hwrite).trans (finishInteger_run ok r b hu))) i hi
  · exact (readInteger_memory hFL hm).trans (run_bind_error (run_bind_error haddress))
  · rintro q n r limit long rfl hn hlong hlimit hr hwrite
    rw [← trunc_ofPattern] at hn
    have hok : r = if decide (-limit ≤ n ∧ n ≤ limit) then n else 0 := by simpa only [decide_eq_true_eq] using hr
    exact (runsBody_storeInteger f ac).endsEarly ((storeInteger_run hn hlong hlimit rfl hok).trans (run_bind_error hwrite))

end Sys2Proof.Machine
end

section
/-! PROOFS. LDCDF, LDCFD, STCFD and STCDF: the change between the precisions (46 R564, R565; 45 R507, R509; 92 D34; log
entry 29). -/

namespace Sys2Proof.Machine

/-! ## The change of precision -/

/-- A pattern brought to a format: a zero is the clean zero, a single number is extended, a double number is rounded. -/
def changeFormat (v : BitVec 64) (fmt : FFormat) (chop fiv : Bool) : FResult :=
  if isFloatZero v then ⟨0#64, false, none⟩ else if fmt = .d then ⟨v, false, none⟩ else narrowResult v chop fiv

/-- Loading and storing change the format alike. -/
theorem convertResult_eq_changeFormat (v : BitVec 64) (fmt : FFormat) (chop fiv : Bool) :
    convertResult v fmt chop fiv = changeFormat v fmt.other chop fiv := by
  cases fmt <;> rfl

/-- The trapped overflow of a narrowed number is a zero with the sign. -/
theorem packFloat_zero (neg : Bool) : packFloat neg 0 (2 ^ 23) 24 = BitVec.ofBool neg ++ 0#63 := by
  cases neg <;> decide

/-- R564's cases for a number that is not zero and is brought to single precision. -/
theorem narrowResult_eq (v : BitVec 64) (chop fiv : Bool) : narrowResult v chop fiv =
    if (roundTo (Exact.ofPattern v) 24 chop).biased ≤ 255 then ⟨(roundTo (Exact.ofPattern v) 24 chop).pack 24, false, none⟩
    else if fiv then ⟨BitVec.ofBool (roundTo (Exact.ofPattern v) 24 chop).neg ++ 0#63, true, some 8#4⟩
    else ⟨0#64, true, none⟩ := by
  unfold narrowResult
  dsimp only
  rw [packFloat_zero]
  by_cases h : (roundTo (Exact.ofPattern v) 24 chop).biased ≤ 255
  · rw [if_pos h, if_neg (not_lt.2 h)]
  · rw [if_neg h, if_pos (not_le.1 h)]

section
variable {v : BitVec 64} (chop fiv : Bool)

theorem changeFormat_zero (fmt : FFormat) (hv : v.extractLsb' 55 8 = 0#8) :
    changeFormat v fmt chop fiv = ⟨0#64, false, none⟩ := if_pos ((isFloatZero_iff v).2 hv)

section
variable (hv : v.extractLsb' 55 8 ≠ 0#8)
include hv

theorem changeFormat_d : changeFormat v .d chop fiv = ⟨v, false, none⟩ :=
  (if_neg fun h => hv ((isFloatZero_iff v).1 h)).trans (if_pos rfl)

theorem changeFormat_f : changeFormat v .f chop fiv = narrowResult v chop fiv :=
  (if_neg fun h => hv ((isFloatZero_iff v).1 h)).trans (if_neg nofun)

end

end

/-! ## Running them -/

section
variable {f : Operand} {ac : AcField} {s s1 t u : State} {p : FPlace} {v : BitVec 64} {e : Exit}

theorem loadConvert_run (hread : readFloatSource f s.precision.other s = .ok v s1) : loadConvert ac f s =
    .ok () (s1.storeResult (acNumber ac) s.precision (changeFormat v s.precision s.chop s.fiv)) := by
  have hfpu := readFloatSource_ok_fpu hread
  rw [← chop_of_fpu hfpu, ← fiv_of_fpu hfpu]
  refine (run_look_bind ..).trans ((run_bind_ok hread).trans ?_)
  cases s.precision <;> rfl

/-- What STCFD and STCDF store. -/
def narrowed (s : State) (ac : AcField) : FResult :=
  changeFormat (s.acc (acNumber ac) s.precision) s.precision.other s.chop s.fiv

/-- Raising an exception leaves the accumulators. -/
theorem acc_raiseCode (s : State) (code : Option (BitVec 4)) (n : Fin 6) (fmt : FFormat) :
    (s.raiseCode code).acc n fmt = s.acc n fmt := by
  cases code with
  | none => rfl
  | some code => exact acc_congr (floatException_ac s code) n fmt

/-- The second half of STCFD and STCDF: the write, the exception and the codes. -/
def storeAndRaise (fmt : FFormat) (ac : AcField) (f : Operand) (r : FResult) (p : FPlace) : M Unit := do
  writeFloatPlace f fmt.other p r.value
  update fun s => s.raiseCode r.code
  update fun s => s.withFcc (floatCc (s.acc (acNumber ac) fmt) r.fv false)

theorem storeConvert_eq (s : State) : storeConvert ac f s =
    (floatPlace f s.precision.other >>= storeAndRaise s.precision ac f (narrowed s ac)) s := by
  rw [narrowed, ← convertResult_eq_changeFormat]
  rfl

theorem storeConvert_run (hplace : floatPlace f s.precision.other s = .ok p s1) :
    storeConvert ac f s = storeAndRaise s.precision ac f (narrowed s ac) p s1 :=
  (storeConvert_eq s).trans (run_bind_ok hplace)

theorem storeAndRaise_ok {fmt : FFormat} {r : FResult} (hwrite : writeFloatPlace f fmt.other p r.value s = .ok () t) :
    storeAndRaise fmt ac f r p s =
      .ok () ((t.raiseCode r.code).withFcc (floatCc (t.acc (acNumber ac) fmt) r.fv false)) := by
  rw [← acc_raiseCode t r.code]
  exact run_bind_ok hwrite

end

/-! ## The names of each body -/

section
variable (f : Operand) (ac : AcField)

theorem runsBody_loadConvert : RunsBody [.ldcdf ac f, .ldcfd ac f] (loadConvert ac f) := .two (fun _ => rfl) fun _ => rfl
theorem runsBody_storeConvert : RunsBody [.stcfd ac f, .stcdf ac f] (storeConvert ac f) := .two (fun _ => rfl) fun _ => rfl

end

/-- Settles O60: both directions are `changeFormat`; a load stores it as a result, a store writes it as an operand. -/
theorem formatConversions : Obligations.FormatConversions := by
  intro s s1 f ac convert hconvert
  have hchange (v : BitVec 64) (fmt : FFormat) : convert v fmt = changeFormat v fmt s.chop s.fiv := by
    rw [hconvert]
    by_cases hv : v.extractLsb' 55 8 = 0#8
    · rw [if_pos hv, changeFormat_zero s.chop s.fiv fmt hv]
    · rw [if_neg hv]
      cases fmt with
      | d => exact (changeFormat_d s.chop s.fiv hv).symm
      | f => rw [changeFormat_f s.chop s.fiv hv, narrowResult_eq]
  refine ⟨fun v hread => ?_, ?_, fun e u => ⟨fun hread => ?_, fun hplace => ?_, ?_⟩⟩
  · rw [hchange]
    exact (runsBody_loadConvert f ac).next (loadConvert_run hread)
  · rintro _ _ p t rfl rfl hplace hwrite i hi
    rw [hchange] at hwrite ⊢
    refine ⟨t.raiseCode (narrowed s ac).code, ?_,
      (runsBody_storeConvert f ac).next ((storeConvert_run hplace).trans (storeAndRaise_ok hwrite)) i hi⟩
    rw [narrowed]
    cases (changeFormat (s.acc (acNumber ac) s.precision) s.precision.other s.chop s.fiv).code with
    | none => rfl
    | some code => rfl
  · exact (runsBody_loadConvert f ac).endsEarly ((run_look_bind ..).trans (run_bind_error hread))
  · exact (runsBody_storeConvert f ac).endsEarly ((storeConvert_eq s).trans (run_bind_error hplace))
  · rintro _ p rfl hplace hwrite
    rw [hchange] at hwrite
    exact (runsBody_storeConvert f ac).endsEarly ((storeConvert_run hplace).trans (run_bind_error hwrite))

end Sys2Proof.Machine
end

section
/-! PROOFS. What a trap sequence, taking an exception and taking a request come to in plain memory (60 R601, R603, R620, R621,
R630 to R636, R640, R650, R651). -/

namespace Sys2Proof.Machine

/-- Settles O39: the vector and both pushes are plain. -/
theorem trapSequenceInPlainMemory : Obligations.TrapSequenceInPlainMemory := fun _ _ => trapSequence_of_trapReady

section
variable {s : State} {v : Word}

/-! ## Requests -/

/-- Whether a sequence can run depends on the HALT line, the memory path, storage and the registers only. -/
theorem State.TrapReady.congr {t : State} (h : s.TrapReady v) (hlines : t.lines = s.lines) (hmmr0 : t.mmu.mmr0 = s.mmu.mmr0)
    (hplat : t.plat = s.plat) (hanswers : t.answers = s.answers) (hmem : t.mem = s.mem) (hregs : t.regs = s.regs) :
    t.TrapReady v := by
  obtain ⟨hhalt, hpc, hps, hfirst, hsecond⟩ := h
  have hplain {a : Word} (ha : s.PlainAt a) : t.PlainAt a := ha.congr hmmr0 hplat hanswers
  have hmode : t.vectorMode v = s.vectorMode v := congrArg (BitVec.extractLsb' 14 2) (State.word_congr hmem _)
  have hstack (m : BitVec 2) : t.stackPtr m = s.stackPtr m := by
    unfold State.stackPtr
    rw [hregs]
  refine ⟨hlines ▸ hhalt, hplain hpc, hplain hps, ?_, ?_⟩
  · rw [hmode, hstack]
    exact hplain hfirst
  · rw [hmode, hstack]
    exact hplain hsecond

/-- So the acknowledge cycles and what is no longer pending have no part in it. -/
theorem State.TrapReady.taken (h : s.TrapReady v) (r : Request) : ((s.acknowledge r).withdraw r).TrapReady v := by
  cases r <;> exact h.congr rfl rfl rfl rfl rfl rfl

theorem acknowledge_lines (s : State) (r : Request) : (s.acknowledge r).lines = s.lines := by
  cases r <;> rfl

/-- Without HALT at the vector read the request's sequence runs (60 R636). -/
theorem takeRequest_of_noHalt (r : Request) (h : s.lines.haltAtVector = false) :
    s.takeRequest r = ((s.acknowledge r).withdraw r).trapSequence r.vector r.kind :=
  if_neg (by rw [acknowledge_lines, h]; exact Bool.false_ne_true)

theorem takeRequest_of_halt (r : Request) (h : s.lines.haltAtVector = true) :
    s.takeRequest r = (s.acknowledge r).enterConsole :=
  if_pos (by rw [acknowledge_lines, h])

theorem takeRequest_of_trapReady (r : Request) (hkind : r.kind = .other) (h : s.TrapReady r.vector) :
    s.takeRequest r = ((s.acknowledge r).withdraw r).afterTrap r.vector := by
  rw [takeRequest_of_noHalt r h.noHalt, hkind, trapSequence_of_trapReady (h.taken r)]

/-! ## The yellow stack trap -/

/-- The state in which the pushes of a trap sequence through `v` begin (R620). -/
def State.entered (s : State) (v : Word) : State :=
  State.vectored { s with phase := .service, flow := { s.flow with stale := none } } v s.ps

/-- A push that is not checked leaves a yellow request withdrawn (R640). -/
theorem withdraw_trapPushed_yellow (s : State) (m : BitVec 2) (v : Word) :
    (s.withdraw .yellow).trapPushed .yellow m v = (s.trapPushed .other m v).withdraw .yellow := by
  have hunchecked (c : Prop) [Decidable c] : decide (TrapKind.yellow = .other ∧ c) = false :=
    decide_eq_false fun h => TrapKind.noConfusion h.1
  have hstack (x : Word) : ((s.withdraw .yellow).setStackPtr m x).regs = (s.setStackPtr m x).regs :=
    setStackPtr_regs_congr m x rfl
  unfold State.trapPushed
  rw [hunchecked, hstack]
  rfl

theorem loadVector_entered (hpc : s.PlainAt v) (hps : s.PlainAt (v + 2#16)) :
    loadVector v s.ps { s with phase := .service, flow := { s.flow with stale := none } } = .ok () (s.entered v) :=
  loadVector_plain (s := { s with phase := .service, flow := { s.flow with stale := none } })
    (hpc.congr rfl rfl rfl) (hps.congr rfl rfl rfl) s.ps

/-- The pushes run in the mode that the vector selects. -/
theorem entered_curMode (s : State) (v : Word) : (s.entered v).curMode = s.vectorMode v := extractLsb'_vectorPs_mode _ _

/-- How a trap sequence from `s` to mode `m` ends, by what its pushes came to: a kernel push that raised is the red stack abort
(R620, R622, R641). -/
def State.afterPushes (s : State) (m : BitVec 2) : EStateM.Result Exit State Unit → State
  | .ok _ t => t
  | .error e t => if m = kernel then t.redStack e s.ps s.regs.pc else t.nestedAbort e

/-- Without HALT at a plain vector the sequence comes to its pushes (R620, R636). -/
theorem trapSequence_eq_afterPushes (hhalt : s.lines.haltAtVector = false) (hpc : s.PlainAt v) (hps : s.PlainAt (v + 2#16))
    (kind : TrapKind) : s.trapSequence v kind =
      s.afterPushes (s.vectorMode v) (pushOld kind (s.vectorMode v) s.ps s.regs.pc (s.entered v)) := by
  unfold State.trapSequence
  rw [if_neg (by rw [hhalt]; exact Bool.false_ne_true)]
  dsimp only
  rw [loadVector_entered hpc hps]
  dsimp only
  rw [entered_curMode]
  rfl

/-- A trap sequence of either kind in plain memory: the vector, then the two pushes (R620). -/
theorem trapSequence_eq_pushes (h : s.TrapReady v) (kind : TrapKind) : s.trapSequence v kind =
    ((s.entered v).trapPushed kind (s.vectorMode v) s.ps).trapPushed kind (s.vectorMode v) s.regs.pc := by
  obtain ⟨hhalt, hpc, hps, hfirst, hsecond⟩ := h
  have hpush := pushOld_plain (s := s.entered v) kind (hfirst.congr rfl rfl rfl) (hsecond.congr rfl rfl rfl) s.ps s.regs.pc
  rw [trapSequence_eq_afterPushes hhalt hpc hps, hpush]
  rfl

/-- The sequence of the yellow stack trap differs from the others only in that its pushes request no other one. -/
theorem trapSequence_yellow (h : s.TrapReady v) :
    (s.withdraw .yellow).trapSequence v .yellow = (s.afterTrap v).withdraw .yellow := by
  have hready : (s.withdraw .yellow).TrapReady v := h.congr rfl rfl rfl rfl rfl rfl
  calc (s.withdraw .yellow).trapSequence v .yellow
    _ = (((s.entered v).withdraw .yellow).trapPushed .yellow (s.vectorMode v) s.ps).trapPushed .yellow (s.vectorMode v)
          s.regs.pc := trapSequence_eq_pushes hready .yellow
    _ = (((s.entered v).trapPushed .other (s.vectorMode v) s.ps).trapPushed .other (s.vectorMode v) s.regs.pc).withdraw
          .yellow := by rw [withdraw_trapPushed_yellow, withdraw_trapPushed_yellow]
    _ = (s.afterTrap v).withdraw .yellow := by rw [← trapSequence_eq_pushes h, trapSequence_of_trapReady h]

end

/-- Settles O41: each event by `takeEvent_of_trapReady`, each request by `takeRequest_of_trapReady`; the yellow stack trap has
a sequence of its own, and with HALT none runs. -/
theorem eventsTakenInPlainMemory : Obligations.EventsTakenInPlainMemory := by
  intro s
  refine ⟨fun row hrow => ?_, fun vector => ?_, fun hready => ?_, fun r hhalt => ?_⟩
  · have hbits : row.2 = (row.1.vector, row.1.cpuerrBits) := by
      revert row
      decide
    rw [hbits]
    exact takeEvent_of_trapReady row.1
  · simp only [List.forall_mem_cons]
    exact ⟨takeRequest_of_trapReady .parity rfl, takeRequest_of_trapReady .trace rfl,
      takeRequest_of_trapReady .powerFail rfl, takeRequest_of_trapReady .floating rfl,
      takeRequest_of_trapReady .pirq rfl, takeRequest_of_trapReady (.irq (some vector)) rfl,
      takeRequest_of_trapReady .event rfl, fun _ h => absurd h List.not_mem_nil⟩
  · have hrecorded : (s.setCpuerr 0o10#16).TrapReady 0o4#16 := hready.congr rfl rfl rfl rfl rfl rfl
    exact ⟨_, rfl, (takeRequest_of_noHalt .yellow hready.noHalt).trans (trapSequence_yellow hrecorded)⟩
  · refine ⟨_, takeRequest_of_halt r hhalt, ?_⟩
    cases r <;> exact ⟨rfl, rfl, rfl, rfl, rfl, rfl, rfl⟩

end Sys2Proof.Machine
end

section
/-! PROOFS. The red stack abort of an odd kernel stack pointer (60 R641; 92 D44). -/

namespace Sys2Proof.Machine

section
variable {s : State}

/-- A push of a trap sequence that raised: the SP was lowered and checked, nothing was stored. -/
def State.pushRaised (s : State) (kind : TrapKind) (m : BitVec 2) : State := { s.trapPushed kind m 0#16 with mem := s.mem }

/-- A push of a trap sequence to an odd address raises an address error (R620; 20_memory R102). -/
theorem trapPush_odd (kind : TrapKind) {m : BitVec 2} (hodd : (s.stackPtr m - 2#16).getLsbD 0 = true) (v : Word) :
    trapPush kind m v s = .error (.raise .addressError) (s.pushRaised kind m) := by
  have hsp : (s.setStackPtr m (s.stackPtr m - 2#16)).stackPtr m = s.stackPtr m - 2#16 := s.stackPtr_setStackPtr m _
  unfold trapPush
  rw [run_update_bind, run_look_bind, run_update_bind, hsp, requestYellow_if, setStackPtr_eq]
  exact run_bind_error (run_bind_error (checkAligned_odd _ hodd))

/-- What the emergency sequence leaves: PC and PS from words 4 and 6, the old PS and PC in words 2 and 0, the SP 0. -/
def State.redStacked (s : State) (oldPs oldPc : Word) : State :=
  { s with
    regs := { s.regs with ksp := 0#16, pc := s.word 0o4#16 }
    ps := vectorPs (s.word 0o6#16) oldPs
    mem := (s.mem.writeWord 2 oldPs).writeWord 0 oldPc
    flow := { s.flow with prefetchFault := true } }

theorem redStackSequence_plain (h0 : s.PlainAt 0#16) (h2 : s.PlainAt 2#16) (h4 : s.PlainAt 4#16) (h6 : s.PlainAt 6#16)
    (oldPs oldPc : Word) : redStackSequence oldPs oldPc s = .ok () (s.redStacked oldPs oldPc) := by
  let s1 : State := (s.setStackPtr kernel 0o4#16).writePs 0o140000#16 0#16
  let s2 : State := (s1.jump (s.word 0o4#16)).writePs 0o177777#16 (vectorPs (s.word 0o6#16) oldPs)
  let s3 : State := s2.setStackPtr kernel 0o2#16
  let s4 : State := State.setStackPtr (s3.putWord 2#16 oldPs) kernel 0o0#16
  have hreadPc : memRead .d kernel .word 0o4#16 .read s1 = .ok (s.word 0o4#16) s1 := h4.read_congr s1 rfl rfl rfl rfl ..
  have hreadPs : memRead .d kernel .word 0o6#16 .read s1 = .ok (s.word 0o6#16) s1 := h6.read_congr s1 rfl rfl rfl rfl ..
  have hwritePs : memWrite .d kernel .word 0o2#16 oldPs s3 = .ok false (s3.putWord 2#16 oldPs) :=
    State.PlainAt.write (s := s3) (h2.congr rfl rfl rfl) ..
  have hwritePc : memWrite .d kernel .word 0o0#16 oldPc s4 = .ok false (s4.putWord 0#16 oldPc) :=
    State.PlainAt.write (s := s4) (h0.congr rfl rfl rfl) ..
  have hps : s2.ps = vectorPs (s.word 0o6#16) oldPs := mergeBits_allOnes _ _
  have hleft : s4.putWord 0#16 oldPc = s.redStacked oldPs oldPc := by
    rw [State.redStacked, ← hps]
    rfl
  calc redStackSequence oldPs oldPc s
    _ = .ok () (s4.putWord 0#16 oldPc) := (run_bind_ok hreadPc).trans <| (run_bind_ok hreadPs).trans <|
          (run_bind_ok hwritePs).trans (run_bind_ok hwritePc)
    _ = .ok () (s.redStacked oldPs oldPc) := by rw [hleft]

/-- A trap sequence whose first kernel push is odd ends as the red stack abort (R641). -/
theorem trapSequence_odd {v : Word} (hhalt : s.lines.haltAtVector = false) (hpc : s.PlainAt v) (hps : s.PlainAt (v + 2#16))
    (hmode : s.vectorMode v = kernel) (hodd : (s.regs.ksp - 2#16).getLsbD 0 = true) : s.trapSequence v .other =
      ((s.entered v).pushRaised .other kernel).redStack (.raise .addressError) s.ps s.regs.pc := by
  have hpush : pushOld .other kernel s.ps s.regs.pc (s.entered v) =
      .error (.raise .addressError) ((s.entered v).pushRaised .other kernel) :=
    run_bind_error (trapPush_odd (s := s.entered v) (m := kernel) .other hodd s.ps)
  rw [trapSequence_eq_afterPushes hhalt hpc hps, hmode, hpush, State.afterPushes, if_pos rfl]

/-- The red stack abort records its cause and runs the emergency sequence (R641). -/
theorem redStack_addressError (h0 : s.PlainAt 0#16) (h2 : s.PlainAt 2#16) (h4 : s.PlainAt 4#16) (h6 : s.PlainAt 6#16)
    (oldPs oldPc : Word) : s.redStack (.raise .addressError) oldPs oldPc = (s.setCpuerr 0o104#16).redStacked oldPs oldPc := by
  have hrun := redStackSequence_plain (s := s.setCpuerr 0o104#16) (h0.congr rfl rfl rfl) (h2.congr rfl rfl rfl)
    (h4.congr rfl rfl rfl) (h6.congr rfl rfl rfl) oldPs oldPc
  unfold State.redStack
  dsimp only
  rw [show Event.addressError.cpuerrBits ||| 0o4#16 = 0o104#16 from rfl, hrun]

end

/-- Settles O42: the odd push, then the emergency sequence over the storage the first sequence left. -/
theorem redStackAbort : Obligations.RedStackAbort := by
  intro s v hwf hhalt hpc hps h0 h2 h4 h6 hmode hodd
  have hred : s.trapSequence v .other =
      (((s.entered v).pushRaised .other kernel).setCpuerr 0o104#16).redStacked s.ps s.regs.pc :=
    (trapSequence_odd hhalt hpc hps hmode hodd).trans <|
      redStack_addressError (s := (s.entered v).pushRaised .other kernel) (h0.congr rfl rfl rfl) (h2.congr rfl rfl rfl)
        (h4.congr rfl rfl rfl) (h6.congr rfl rfl rfl) _ _
  refine ⟨_, hred.symm, rfl, rfl, rfl, ?_, ?_, fun a ha => ?_⟩
  · exact (Memory.readWord_writeWord_ne _ (by decide) (by decide) (by decide)).trans (Memory.readWord_writeWord 2 _ hwf)
  · exact Memory.readWord_writeWord 0 _ (Memory.wf_writeWord 2 _ hwf)
  · exact (Memory.read_writeWord_ne _ (by omega) (by omega)).trans (Memory.read_writeWord_ne _ (by omega) (by omega))

end Sys2Proof.Machine
end

section
/-! PROOFS. Fetching from plain memory, the word that a store left stale, and a step that runs an instruction (60 R610, R650;
10_state R28, R56 to R58; 70 R762; 92 D50). -/

namespace Sys2Proof.Machine

section
variable {s t u : State}

/-! ## Fetching -/

/-- An instruction word in plain storage is read, and nothing changes (R610). -/
theorem readInstruction_plain (h : s.PlainAt s.regs.pc) : readInstruction s = .ok (s.word s.regs.pc) s := by
  have hfetchable : checkFetchable (s.regs.pc.setWidth 22) s = .ok () s := by
    unfold checkFetchable
    rw [run_look_bind, h.device]
    rfl
  unfold readInstruction
  rw [run_look_bind, run_bind_ok (checkAligned_pass s (.inr h.even)), run_look_bind, run_bind_ok (h.translate .i _ .read),
    run_bind_ok hfetchable]
  exact physRead_word_ok (h.physReadWord_eq (wordAddr_even h.even))

/-- The start of an instruction clears MMR1 and loads MMR2 unless MMR0 is frozen (R57, R58). -/
theorem beginInstruction_mmu_eq (s : State) : s.beginInstruction.mmu =
    if s.mmu.mmr0.extractLsb' 13 3 = 0#3 then { s.mmu with mmr1 := 0#16, mmr2 := s.regs.pc } else s.mmu := by
  rw [State.beginInstruction_mmu]
  by_cases h : s.mmu.mmr0.extractLsb' 13 3 = 0#3
  · rw [if_pos h, (frozen_eq_false_iff s).2 h]
    rfl
  · rw [if_neg h, (frozen_eq_true_iff s).2 h]
    rfl

theorem State.PlainAt.beginInstruction {a : Word} (h : s.PlainAt a) : s.beginInstruction.PlainAt a := by
  refine h.congr ?_ rfl rfl
  rw [beginInstruction_mmu_eq]
  split <;> rfl

/-- The fetch at a plain PC: the word there, or a stale one, with the PC past it (R28, R610). -/
theorem fetchInstruction_plain (h : s.PlainAt s.regs.pc) :
    fetchInstruction s = resolveStale (s.word s.regs.pc) s.advancePc := by
  unfold fetchInstruction
  rw [readInstruction_plain h]

theorem resolveStale_fresh (w : Word) (h : s.flow.stale = none) :
    resolveStale w s = .ok w { s with flow := { s.flow with stale := none } } := by
  have hkept : ({ s with flow := { s.flow with stale := none } } : State) = s := by rw [← h]
  unfold resolveStale
  rw [hkept, h]

/-- A stale word is the old one or the new one, by a free value, and is stale no longer (D50). -/
theorem resolveStale_stale (w : Word) {old : Word} (h : s.flow.stale = some old) : ∃ x, (x = old ∨ x = w) ∧
    resolveStale w s = .ok x { s with draws := s.draws + 1, flow := { s.flow with stale := none } } := by
  refine ⟨if Config.freeBit s.draws then old else w, ite_eq_or_eq _ _ _, ?_⟩
  unfold resolveStale
  rw [h]

/-- Which word is used is decided without an exit. -/
theorem resolveStale_ne_error (w : Word) (e : Exit) : resolveStale w s ≠ .error e t := by
  intro h
  unfold resolveStale at h
  split at h <;> cases h

/-- A fetch that fails empties the pipeline, with the PC advanced or not (R762). -/
theorem fetchInstruction_raise {e : Event} (h : fetchInstruction s = .error (.raise e) t) :
    ∃ s1 : State, t = s1.emptyPipeline.advancePc ∨ t = s1.emptyPipeline := by
  unfold fetchInstruction at h
  split at h
  · exact absurd h (resolveStale_ne_error _ _)
  next e' s1 _ =>
    cases h
    exact ⟨s1, ite_eq_or_eq _ _ _⟩
  · cases h

/-! ## The end of an instruction -/

theorem staleAfter_of_discarded (h : t.flow.prefetchFault = true) : staleAfter s t = none := if_pos h

theorem nextWordAddr_plain (h : t.PlainAt t.regs.pc) : t.nextWordAddr = some (t.regs.pc.setWidth 22) := by
  unfold State.nextWordAddr
  rw [if_neg (by rw [h.even]; exact Bool.false_ne_true), h.translate]
  dsimp only
  rw [if_pos h.device, wordAddr_even h.even]

/-- The word at a plain PC is stale when its storage is not what it was (D50). -/
theorem staleAfter_plain (hkept : t.flow.prefetchFault = false) (h : t.PlainAt t.regs.pc) : staleAfter s t =
    if s.word t.regs.pc = t.word t.regs.pc then none else some (s.word t.regs.pc) := by
  unfold staleAfter
  rw [if_neg (by rw [hkept]; exact Bool.false_ne_true), nextWordAddr_plain h]
  dsimp only
  rw [h.toNat_setWidth]
  rfl

/-! ## A step -/

/-- Without INIT a step is what its phase says, on the sampled inputs. -/
theorem step_of_noInit (h : s.sampleInputs.lines.init = false) : step s = phaseStep exec s.sampleInputs :=
  if_neg (by rw [h]; exact Bool.false_ne_true)

theorem phaseStep_service_some (h : s.phase = .service) (hservice : s.service = some t) : phaseStep exec s = .next t := by
  unfold phaseStep
  rw [h]
  dsimp only
  rw [hservice]

theorem phaseStep_service_none (h : s.phase = .service) (hservice : s.service = none) :
    phaseStep exec s = instructionCycle exec s := by
  unfold phaseStep
  rw [h]
  dsimp only
  rw [hservice]

theorem phaseStep_proceed (h : s.phase = .proceed) :
    phaseStep exec s = instructionCycle exec { s with phase := .service } := by
  unfold phaseStep
  rw [h]

theorem phaseStep_waiting (h : s.phase = .waiting) : phaseStep exec s = .next s.waitStep := by
  unfold phaseStep
  rw [h]

/-- A step with nothing to service, or the first after the console's P, is an instruction cycle (R610; 61 R695). -/
theorem step_eq_instructionCycle (hinit : s.sampleInputs.lines.init = false)
    (hstart : (s.sampleInputs.phase = .service ∧ s.sampleInputs.service = none ∧ u = s.sampleInputs) ∨
      (s.sampleInputs.phase = .proceed ∧ u = { s.sampleInputs with phase := .service })) :
    step s = instructionCycle exec u := by
  rw [step_of_noInit hinit]
  obtain ⟨hphase, hservice, rfl⟩ | ⟨hphase, rfl⟩ := hstart
  · exact phaseStep_service_none hphase hservice
  · exact phaseStep_proceed hphase

theorem instructionCycle_next {w : Word} {s1 s2 : State} (hfetch : fetchInstruction u.beginInstruction = .ok w s1)
    (hexec : exec (decode s1.fd s1.fl w) s1 = .next s2) : instructionCycle exec u = .next (State.endInstruction u s2) := by
  unfold instructionCycle
  rw [hfetch]
  dsimp only
  rw [hexec]

theorem instructionCycle_raise {e : Event} {s1 : State}
    (hfetch : fetchInstruction u.beginInstruction = .error (.raise e) s1) :
    instructionCycle exec u = .next (s1.takeEvent e) := by
  unfold instructionCycle
  rw [hfetch]

end

/-- Settles O9: the fetch is the read of the plain word, the step of the PC, and the choice of a stale word. -/
theorem fetchFromPlainMemory : Obligations.FetchFromPlainMemory := by
  refine ⟨fun s t hplain ht => ?_, fun s t e hfetch => ?_⟩
  · let s1 : State := s.beginInstruction.advancePc
    have hfetch : fetchInstruction s.beginInstruction = resolveStale (s.word s.regs.pc) s1 :=
      fetchInstruction_plain hplain.beginInstruction
    have hleft : t = { s1 with flow := { s1.flow with stale := none } } := by
      rw [ht, ← beginInstruction_mmu_eq]
      rfl
    refine ⟨fun hstale => ?_, fun old hstale => ?_⟩
    · rw [hfetch, hleft]
      exact resolveStale_fresh _ hstale
    · rw [hfetch, hleft]
      exact resolveStale_stale (s := s1) _ hstale
  · obtain ⟨s1, rfl | rfl⟩ := fetchInstruction_raise hfetch <;> exact ⟨rfl, rfl⟩

/-- Settles O8: the step is an instruction cycle, and its end is `State.endInstruction`. -/
theorem stepRunsInstruction : Obligations.StepRunsInstruction := by
  intro s u hinit hstart
  rw [step_eq_instructionCycle hinit hstart]
  exact ⟨fun w s1 s2 => instructionCycle_next, fun t => ⟨staleAfter_of_discarded, staleAfter_plain⟩,
    fun e s1 => instructionCycle_raise⟩

end Sys2Proof.Machine
end

section
/-! PROOFS. What the service state and the waiting state take (60 R602, R610, R630 to R636, R651, R673; 44 R462; 92 D33,
D41). -/

namespace Sys2Proof.Machine

/-! ## The first of the maskable requests -/

/-- What a search finds, with its place: nothing before it is found. -/
theorem findSome?_eq_some_iff_getElem? {α β : Type} (f : α → Option β) (l : List α) (b : β) : l.findSome? f = some b ↔
    ∃ (k : Nat) (a : α), l[k]? = some a ∧ f a = some b ∧ ∀ j < k, ∀ a', l[j]? = some a' → f a' = none := by
  induction l with
  | nil => simp
  | cons first rest ih =>
    rw [List.findSome?_cons]
    cases hfirst : f first with
    | some c =>
      refine ⟨fun h => ⟨0, first, rfl, hfirst.trans h, fun j hj => absurd hj (Nat.not_lt_zero j)⟩, ?_⟩
      rintro ⟨_ | k, a, hk, ha, hbefore⟩
      · cases hk
        exact hfirst.symm.trans ha
      · cases hfirst.symm.trans (hbefore 0 (Nat.zero_lt_succ k) first rfl)
    | none =>
      refine ih.trans ⟨?_, ?_⟩
      · rintro ⟨k, a, hk, ha, hbefore⟩
        refine ⟨k + 1, a, hk, ha, fun j hj a' ha' => ?_⟩
        cases j with
        | zero =>
          cases ha'
          exact hfirst
        | succ j => exact hbefore j (Nat.lt_of_succ_lt_succ hj) a' ha'
      · rintro ⟨_ | k, a, hk, ha, hbefore⟩
        · cases hk
          cases hfirst.symm.trans ha
        · exact ⟨k, a, hk, ha, fun j hj => hbefore (j + 1) (Nat.succ_lt_succ hj)⟩

section
variable {s t : State} {r : Request}

/-- A request bit of PIRQ as it reads (10_state R46). -/
theorem pirq_getLsbD (s : State) {k : Nat} (hk : k < 7) : s.sys.pirq.getLsbD k = (pirqWord s.sys.pirq).getLsbD (9 + k) := by
  have h : ((pirqWord s.sys.pirq).extractLsb' 9 7).getLsbD k = s.sys.pirq.getLsbD k := by rw [extractLsb'_pirqWord]
  rw [← h, BitVec.getLsbD_extractLsb', decide_eq_true hk, Bool.true_and]

/-- The maskable requests are the table of R602. -/
theorem maskable_eq_table (s : State) : s.maskable = s.maskableTable := by
  unfold State.maskable State.pirqRequest
  rw [pirq_getLsbD s (k := 0) (by decide), pirq_getLsbD s (k := 1) (by decide), pirq_getLsbD s (k := 2) (by decide),
    pirq_getLsbD s (k := 3) (by decide), pirq_getLsbD s (k := 4) (by decide), pirq_getLsbD s (k := 5) (by decide),
    pirq_getLsbD s (k := 6) (by decide)]
  rfl

/-- What a row of the table asks for: its request, when its level is above the priority. -/
def State.admitted (s : State) (row : BitVec 3 × Option Request) : Option Request :=
  if s.priority < row.1 then row.2 else none

theorem admitted_eq_some_iff {row : BitVec 3 × Option Request} :
    s.admitted row = some r ↔ s.priority < row.1 ∧ row.2 = some r := by
  unfold State.admitted
  by_cases h : s.priority < row.1 <;> simp [h]

/-- The first row above the priority, as R602 says it. -/
theorem firstAdmitted_iff (s : State) (r : Request) : s.maskable.findSome? s.admitted = some r ↔
    ∃ (k : Nat) (level : BitVec 3), s.maskableTable[k]? = some (level, some r) ∧ s.priority < level ∧
      ∀ j < k, ∀ level' r', s.maskableTable[j]? = some (level', some r') → level' ≤ s.priority := by
  rw [maskable_eq_table, findSome?_eq_some_iff_getElem?]
  constructor
  · rintro ⟨k, ⟨level, x⟩, hk, hx, hbefore⟩
    obtain ⟨habove, rfl⟩ := admitted_eq_some_iff.1 hx
    refine ⟨k, level, hk, habove, fun j hj level' r' hr' => BitVec.not_lt.1 fun hlt => ?_⟩
    cases (admitted_eq_some_iff.2 ⟨hlt, rfl⟩).symm.trans (hbefore j hj _ hr')
  · rintro ⟨k, level, hk, habove, hbefore⟩
    refine ⟨k, (level, some r), hk, if_pos habove, fun j hj a ha => ?_⟩
    obtain ⟨level', _ | r'⟩ := a
    · exact ite_self _
    · exact if_neg (BitVec.not_lt.2 (hbefore j hj level' r' ha))

/-- Power fail is requested once each time the line is asserted (D46). -/
theorem powerFail_not_due (h : s.lines.pwrf = false ∨ s.flow.pwrfAcked = true) :
    (s.lines.pwrf && !s.flow.pwrfAcked) = false := by
  obtain h | h := h
  · rw [h, Bool.false_and]
  · rw [h, Bool.not_true, Bool.and_false]

/-- Without a pending trap the service state looks at the maskable requests (R602, R610). -/
theorem highestRequest_of_noTrap (hparity : s.flow.pendParity = false) (htrace : s.flow.pendTrace = false)
    (hyellow : s.flow.pendYellow = false) (hpower : s.lines.pwrf = false ∨ s.flow.pwrfAcked = true)
    (hfloat : s.flow.pendFp = false) : s.highestRequest = s.maskable.findSome? s.admitted := by
  unfold State.highestRequest
  rw [hparity, htrace, hyellow, powerFail_not_due hpower, hfloat]
  rfl

/-! ## Waiting -/

theorem unlessAborted_eq (l : Irq) : l.unlessAborted = if l = .asserted none then .negated else l := by
  obtain _ | ⟨_ | v⟩ := l <;> rfl

theorem waitStep_of_parity (h : s.wakeRequest = some .parity) : s.waitStep = s.takeRequest .parity := by
  unfold State.waitStep
  rw [h]

theorem waitStep_of_some (h : s.wakeRequest = some r) (hr : r ≠ .parity) : s.waitStep = s.wake (s.takeRequest r) := by
  unfold State.waitStep
  rw [h]
  cases r with
  | parity => exact absurd rfl hr
  | _ => rfl

theorem waitStep_of_none (h : s.wakeRequest = none) :
    s.waitStep = if s.lines.halt then s.wake s.enterConsole else s := by
  unfold State.waitStep
  rw [h]

/-- Without a pending trace trap the wait ends with the event that ended it (D33). -/
theorem wake_of_noTrace (h : s.flow.pendTrace = false) (first : State) : s.wake first = first :=
  if_neg (by rw [h]; exact Bool.false_ne_true)

theorem wake_of_trace (h : s.flow.pendTrace = true) (first : State) : s.wake first = s.takeRequest .trace := if_pos h

/-! ## The service state -/

theorem service_of_some (h : s.highestRequest = some r) (hr : r ≠ .irq none) : s.service = some (s.takeRequest r) := by
  unfold State.service
  rw [h]
  cases r with
  | irq answer =>
    cases answer with
    | none => exact absurd rfl hr
    | some v => rfl
  | _ => rfl

theorem service_of_aborted (h : s.highestRequest = some (.irq none)) : s.service = none := by
  unfold State.service
  rw [h]

theorem service_of_none (h : s.highestRequest = none) :
    s.service = if s.lines.halt then some s.enterConsole else none := by
  unfold State.service
  rw [h]

end

/-- Settles O48: the order of `State.highestRequest`, `firstAdmitted_iff` for the masked ones, and the ends of a wait. -/
theorem servicePriority : Obligations.ServicePriority := by
  intro s
  refine ⟨fun hparity => ?_, fun hparity htrace => ?_, fun hparity htrace hyellow => ?_,
    fun hparity htrace hyellow hpower hacked => ?_, fun hparity htrace hyellow hpower hfloat => ?_,
    fun hparity htrace hyellow hpower hfloat r => ?_, fun r => service_of_some, service_of_aborted, service_of_none,
    fun heard w hheard hw => ?_, fun u t hu hinit hphase hservice => ?_, fun u hu hinit hphase => ?_⟩
  · simp [State.highestRequest, hparity]
  · simp [State.highestRequest, hparity, htrace]
  · simp [State.highestRequest, hparity, htrace, hyellow]
  · simp [State.highestRequest, hparity, htrace, hyellow, hpower, hacked]
  · simp [State.highestRequest, hparity, htrace, hyellow, powerFail_not_due hpower, hfloat]
  · rw [highestRequest_of_noTrap hparity htrace hyellow hpower hfloat]
    exact firstAdmitted_iff s r
  · have hwake : w.highestRequest = s.wakeRequest := by
      have : heard = Irq.unlessAborted := funext fun l => (hheard l).trans (unlessAborted_eq l).symm
      rw [hw, this]
      rfl
    rw [hwake]
    refine ⟨fun hnone hhalt => ?_, fun hnone hhalt htrace => ?_, fun r hr hfirst => ?_, fun htrace hparity hends => ?_⟩
    · rw [waitStep_of_none hnone, hhalt]
      rfl
    · rw [waitStep_of_none hnone, if_pos hhalt, wake_of_noTrace htrace]
    · by_cases hparity : r = .parity
      · subst hparity
        exact waitStep_of_parity hr
      · rw [waitStep_of_some hr hparity, wake_of_noTrace (hfirst.resolve_left hparity)]
    · cases hr : s.wakeRequest with
      | some r => rw [waitStep_of_some hr fun h => hparity (h ▸ hr), wake_of_trace htrace]
      | none => rw [waitStep_of_none hr, if_pos (hends.resolve_left fun h => h hr), wake_of_trace htrace]
  · subst hu
    rw [step_of_noInit hinit, phaseStep_service_some hphase hservice]
  · subst hu
    rw [step_of_noInit hinit, phaseStep_waiting hphase]

end Sys2Proof.Machine
end

section
/-! PROOFS. Console ODT reading a character, and its command G (61 R685, R694, R702; 10_state R92; 92 D47, D48). -/

namespace Sys2Proof.Machine

section
variable {s : State}

/-! ## Reading a character (R685) -/

/-- Characters that are not echoed: the bytes of a dump address, and codes below `0o20`. -/
def Entry.silent (e : Entry) (ch : Byte) : Bool :=
  match e with
  | .dumpHigh | .dumpLow _ => true
  | .prompt | .number _ | .designator _ | .opened _ _ => decide (ch.toNat % 128 < 0o20)

theorem extractLsb'_code_toNat (ch : Byte) : (ch.extractLsb' 0 7).toNat = ch.toNat % 128 := by
  rw [BitVec.extractLsb'_toNat, Nat.shiftRight_zero]

/-- Nothing to echo leaves the state as it is. -/
theorem putChars_nil (s : State) : s.putChars [] = s := by
  have hout : s.io.out ++ [] = s.io.out := List.append_nil _
  unfold State.putChars
  rw [hout]

theorem echo_eq_putChars (s : State) (e : Entry) (ch : Byte) :
    s.echo e ch = s.putChars (if e.silent ch then [] else [ch]) := by
  have hcode : (if ch.extractLsb' 0 7 < 0o20#7 then s else s.putChars [ch]) =
      s.putChars (if decide (ch.toNat % 128 < 0o20) then [] else [ch]) := by
    have hiff : ch.extractLsb' 0 7 < 0o20#7 ↔ decide (ch.toNat % 128 < 0o20) = true := by
      rw [decide_eq_true_iff, ← extractLsb'_code_toNat]
      exact Iff.rfl
    rw [if_congr hiff rfl rfl, apply_ite s.putChars, putChars_nil]
  cases e with
  | dumpHigh | dumpLow => exact (putChars_nil s).symm
  | prompt | number | designator | opened => exact hcode

/-- With nothing left to print the loop acts. -/
theorem consoleStep_idle (c : Console) (hout : s.io.out = []) : s.consoleStep c = s.consoleAct c := by
  unfold State.consoleStep
  rw [hout]

theorem consoleAct_read_none (e : Entry) (hrx : s.io.rx = none) : s.consoleAct (.read e) = s := by
  simp only [State.consoleAct, hrx]

/-- A character in RBUF is taken and echoed. -/
theorem consoleAct_read_some (e : Entry) {ch : Byte} (hout : s.io.out = []) (hrx : s.io.rx = some ch) :
    s.consoleAct (.read e) = { s with
      phase := .console (.typed e ch)
      io := { s.io with rx := none, out := if e.silent ch then [] else [ch] } } := by
  have hecho : s.consoleAct (.read e) = (s.takeChar.echo e ch).atConsole (.typed e ch) := by
    simp only [State.consoleAct, hrx]
  rw [hecho, echo_eq_putChars, State.atConsole, State.putChars, State.takeChar_io, hout]
  rfl

/-! ## G (R694) -/

/-- G in either case. -/
theorem commandCode_go {ch : Byte} (h : ch.toNat % 128 = 0o107 ∨ ch.toNat % 128 = 0o147) : commandCode ch = 0o107#7 := by
  rw [← extractLsb'_code_toNat] at h
  unfold commandCode
  obtain h | h := h
  · rw [BitVec.eq_of_toNat_eq (y := 0o107#7) h]
    rfl
  · rw [BitVec.eq_of_toNat_eq (y := 0o147#7) h]
    rfl

theorem printGo_idle (a : Word) (hout : s.io.out = []) : s.printGo a =
    { s with phase := .console (.go a), io := { s.io with out := [0#8, 0#8] } } := by
  rw [State.printGo, State.putChars, hout]
  rfl

/-- G after a number: the start address is the number cut to 16 bits (D47). -/
theorem consoleAct_go_number {ch : Byte} (n : BitVec 24) (h : ch.toNat % 128 = 0o107 ∨ ch.toNat % 128 = 0o147) :
    s.consoleAct (.typed (.number n) ch) = s.printGo (n.extractLsb' 0 16) := by
  show s.atNumber n (commandCode ch) = _
  rw [commandCode_go h]
  rfl

/-- G at the prompt starts at 0. -/
theorem consoleAct_go_prompt {ch : Byte} (h : ch.toNat % 128 = 0o107 ∨ ch.toNat % 128 = 0o147) :
    s.consoleAct (.typed .prompt ch) = s.printGo 0#16 := by
  show s.atPrompt (commandCode ch) = _
  rw [commandCode_go h]
  rfl

/-! ## The start (10_state R92; 92 D48) -/

/-- No register of the chip or of the console line answers where the memory system error register may be. -/
theorem deviceAt_memoryError (h : s.deviceAt 0o17777744#22 ≠ .storage) : s.deviceAt 0o17777744#22 = .nothing := by
  have hdevice : s.deviceAt 0o17777744#22 = if hasStorage s.plat 0o17777744#22 then .storage else .nothing := by
    unfold State.deviceAt
    cases s.plat.serialLine <;> rfl
  rw [hdevice] at h ⊢
  exact if_neg fun hstored => h (if_pos hstored)

/-- A write where nothing of the chip's or the platform's answers, aborted or not, is one bus cycle and nothing else. -/
theorem finalState_physWrite_nothing {sz : Size} {a : PAddr} (v : Word) (h : s.deviceAt a = .nothing) :
    finalState (physWrite sz a v s) = s.answered := by
  unfold physWrite
  rw [h]
  dsimp only
  split <;> rfl

/-- The console's bus traffic keeps the parity interrupt that was pending. -/
theorem consoleBus_snd {α : Type} (s : State) (m : M α) : (s.consoleBus m).2 =
    { finalState (m { s with flow := { s.flow with pendParity := false } }) with
      flow := { (finalState (m { s with flow := { s.flow with pendParity := false } })).flow with
        pendParity := s.flow.pendParity } } := by
  unfold State.consoleBus
  split
  next h => rw [h]; rfl
  next h => rw [h]; rfl

theorem consoleBus_write_nothing {a : PAddr} (v : Word) (h : s.deviceAt a = .nothing) :
    (s.consoleBus (physWrite .word a v)).2 = s.answered := by
  rw [consoleBus_snd, finalState_physWrite_nothing v (s := { s with flow := { s.flow with pendParity := false } }) h]
  rfl

/-- What G clears before its one memory cycle (D48). -/
def State.goCleared (s : State) (a : Word) : State :=
  { s.jump a with
    ps := 0#16
    sys := { pirq := 0#7, cpuerr := 0#16, ccr := s.sys.ccr }
    mmu := { s.mmu with mmr0 := s.mmu.mmr0 &&& 0o017776#16, mmr3 := 0#16 }
    fpu := { s.fpu with fps := 0#16 } }

/-- What G does after it: the CCR, the general-purpose cycles, and the flags of the pipeline (D48). -/
def State.goReleased (s : State) : State :=
  { s with
    sys := { s.sys with ccr := 0#16 }
    io := { s.io with gp := s.io.gp ++ [.read 0o000#8, .write 0o014#8, .write 0o214#8, .write 0o034#8] }
    phase := .service
    flow := { s.flow with pendTrace := false, pendYellow := false, pendFp := false, traceFlag := false, stale := none } }

theorem consoleGo_eq_goReleased (s : State) (a : Word) : s.consoleGo a =
    ((s.goCleared a).consoleBus (physWrite .word 0o17777744#22 0#16)).2.goReleased := by
  have hcycles (l : List GpCycle) (c1 c2 c3 c4 : GpCycle) :
      l ++ [c1, c2, c3, c4] = l ++ [c1] ++ [c2] ++ [c3] ++ [c4] := by
    simp only [List.append_assoc, List.cons_append, List.nil_append]
  rw [State.goReleased, hcycles]
  rfl

/-- Where the memory system error register is not storage, its write leaves what other bus masters stored (log entry 23). -/
theorem consoleGo_eq (a : Word) (h : s.deviceAt 0o17777744#22 ≠ .storage) :
    s.consoleGo a = (s.goCleared a).answered.goReleased := by
  have hcycle : ((s.goCleared a).consoleBus (physWrite .word 0o17777744#22 0#16)).2 = (s.goCleared a).answered :=
    consoleBus_write_nothing _ (deviceAt_memoryError h)
  rw [consoleGo_eq_goReleased, hcycle]

end

/-- Settles O49: the step is `State.consoleAct`, which reads, prints the nulls of G, or starts. -/
theorem consoleStart : Obligations.ConsoleStart := by
  rintro s u rfl hinit hline hout
  have hstep {c : Console} (hphase : s.sampleInputs.phase = .console c) : step s = .next (s.sampleInputs.consoleAct c) := by
    rw [step_of_console hinit hline hphase, consoleStep_idle c hout]
  refine ⟨fun e hphase => ⟨fun hrx => ?_, fun ch hrx => ?_⟩, fun n ch hphase hgo => ?_, fun ch hphase hgo => ?_,
    fun a hphase hdevice => ⟨(s.sampleInputs.goCleared a).answered.goReleased, ?_, rfl, rfl, rfl, pirqWord_zero, rfl,
      rfl, rfl, rfl, answered_memAfter _, fun hquiet => ?_, rfl, rfl⟩⟩
  · rw [hstep hphase, consoleAct_read_none e hrx]
  · rw [hstep hphase, consoleAct_read_some e hout hrx]
    cases e <;> rfl
  · rw [hstep hphase, consoleAct_go_number n hgo, printGo_idle _ hout]
  · rw [hstep hphase, consoleAct_go_prompt hgo, printGo_idle _ hout]
  · rw [hstep hphase]
    exact congrArg Host.Outcome.next (consoleGo_eq a hdevice)
  · exact (answered_memAfter _).trans (memAfter_of_undisturbed hquiet 1)

end Sys2Proof.Machine
end

section
/-! PROOFS. The power-up sequence: the microdiagnostics, the POK poll, and the start that the power-up mode selects (70 R740 to
R747; 61 R690; 92 D49). -/

namespace Sys2Proof.Machine

section
variable {s t : State}

/-! ## What reading the power-up vector keeps -/

/-- Nothing was printed, no general-purpose cycle was made, the prefetch pipeline is as it was or emptier, and storage stays when
no other bus master stores. -/
structure StartKept (s t : State) : Prop where
  gp : t.io.gp = s.io.gp
  out : t.io.out = s.io.out
  stale : t.flow.stale = s.flow.stale
  fault : s.flow.prefetchFault = true → t.flow.prefetchFault = true
  quiet : s.Undisturbed → t.Undisturbed
  mem : s.Undisturbed → t.mem = s.mem

theorem startKept_chained : Chained StartKept where
  refl _ := ⟨rfl, rfl, rfl, id, id, fun _ => rfl⟩
  trans h h' := ⟨h'.gp.trans h.gp, h'.out.trans h.out, h'.stale.trans h.stale, h'.fault ∘ h.fault, h'.quiet ∘ h.quiet,
    fun hq => (h'.mem (h.quiet hq)).trans (h.mem hq)⟩

theorem State.Undisturbed.drop (h : s.Undisturbed) {n : Nat} (ht : t.answers = s.answers.drop n) : t.Undisturbed :=
  fun x hx => h x (List.mem_of_mem_drop (ht ▸ hx))

/-- Bus cycles in which nobody but other masters stores keep all this. -/
theorem startKept_of_cycles (n : Nat) (hgp : t.io.gp = s.io.gp) (hout : t.io.out = s.io.out)
    (hstale : t.flow.stale = s.flow.stale) (hfault : t.flow.prefetchFault = s.flow.prefetchFault)
    (hanswers : t.answers = s.answers.drop n) (hmem : t.mem = s.memAfter n) : StartKept s t :=
  ⟨hgp, hout, hstale, hfault.trans, fun hq => hq.drop hanswers, fun hq => hmem.trans (memAfter_of_undisturbed hq n)⟩

theorem ReadOnce.startKept (h : ReadOnce s t) : StartKept s t := by
  obtain ⟨n, _, ht⟩ := h
  refine startKept_of_cycles n ?_ ?_ ?_ ?_ ?_ ?_ <;> rw [ht]

theorem OnlyAborted.startKept {e : Exit} (h : OnlyAborted e s t) : StartKept s t := by
  obtain ⟨⟨n, _, ht⟩, _⟩ := h
  refine startKept_of_cycles n ?_ ?_ ?_ ?_ ?_ ?_ <;> rw [ht]

theorem memRead_startKept (sp : Space) (m : BitVec 2) (sz : Size) (va : Word) :
    Within StartKept (memRead sp m sz va .read) := by
  intro s
  cases h : memRead sp m sz va .read s with
  | ok w t => exact (memRead_once (by decide) h).startKept
  | error e t => exact (memRead_error (by decide) h).startKept

theorem jump_startKept (s : State) (v : Word) : StartKept s (s.jump v) :=
  ⟨rfl, rfl, rfl, fun _ => rfl, id, fun _ => rfl⟩

theorem writePs_startKept (s : State) (mask v : Word) : StartKept s (s.writePs mask v) :=
  ⟨rfl, rfl, rfl, fun _ => rfl, id, fun _ => rfl⟩

theorem loadPowerUpVector_startKept : Within StartKept loadPowerUpVector :=
  .bind startKept_chained (memRead_startKept _ _ _ _) fun _ =>
    .bind startKept_chained (.update fun _ => jump_startKept ..) fun _ =>
      .bind startKept_chained (memRead_startKept _ _ _ _) fun _ =>
        .update fun _ => writePs_startKept ..

theorem nestedAbort_startKept (s : State) (e : Exit) : StartKept s (s.nestedAbort e) := by
  cases e <;> exact ⟨rfl, rfl, rfl, id, id, fun _ => rfl⟩

/-- The power-up vector in plain memory: PC and PS from its two words, previous mode 0 (R743). -/
theorem loadPowerUpVector_plain (hpc : s.PlainAt 0o24#16) (hps : s.PlainAt 0o26#16) :
    loadPowerUpVector s = .ok () (s.vectored 0o24#16 0#16) := by
  let s1 : State := s.jump (s.word 0o24#16)
  have hreadPs : memRead .d kernel .word 0o26#16 .read s1 = .ok (s.word 0o26#16) s1 := hps.read_congr s1 rfl rfl rfl rfl ..
  have hload : loadPowerUpVector s = .ok () (s1.writePs 0o177777#16 (vectorPs (s.word 0o26#16) 0#16)) :=
    (run_bind_ok (hpc.read ..)).trans (run_bind_ok hreadPs)
  rw [hload, State.writePs, mergeBits_allOnes]
  rfl

/-! ## The start of each power-up mode -/

/-- The state in which a start other than console ODT runs on: the pipeline is empty, the service state is next (R741). -/
def State.readied (s : State) : State := { s.emptyPipeline with phase := .service }

theorem powerUpMode_cases (mode : BitVec 2) : mode = 0#2 ∨ mode = 1#2 ∨ mode = 2#2 ∨ mode = 3#2 := by
  revert mode
  decide

/-- How a start through the power-up vector ends, by what loading it came to. -/
def State.afterVector : EStateM.Result Exit State Unit → State
  | .ok _ t => t
  | .error e t => t.nestedAbort e

theorem afterVector_startKept {r : EStateM.Result Exit State Unit} (h : StartKept s (finalState r)) :
    StartKept s (State.afterVector r) := by
  cases r with
  | ok _ t => exact h
  | error e t => exact startKept_chained.trans h (nestedAbort_startKept t e)

theorem startUp_vector (h : s.plat.cfg.powerUpMode = 0#2) :
    s.startUp = State.afterVector (loadPowerUpVector s.readied) := by
  unfold State.startUp
  dsimp only
  rw [h]
  rfl

theorem startUp_console (h : s.plat.cfg.powerUpMode = 1#2) :
    s.startUp = (s.emptyPipeline.setPriority s.plat.cfg.priorityOdt).enterConsole := by
  unfold State.startUp
  dsimp only
  rw [h]
  rfl

theorem startUp_fixed (h : s.plat.cfg.powerUpMode = 2#2) :
    s.startUp = (s.readied.jump 0o173000#16).setPriority s.plat.cfg.priorityBoot := by
  unfold State.startUp
  dsimp only
  rw [h]
  rfl

theorem startUp_boot (h : s.plat.cfg.powerUpMode = 3#2) :
    s.startUp = (s.readied.jump (s.plat.cfg.bootAddress ++ 0#9)).setPriority s.plat.cfg.priorityBoot := by
  unfold State.startUp
  dsimp only
  rw [h]
  rfl

theorem setPriority_priority (s : State) (p : BitVec 3) : (s.setPriority p).priority = p := by
  have hlevel : ((p.setWidth 16 : Word) <<< 5).extractLsb' 5 3 = p := by
    revert p
    decide
  exact (extractLsb'_mergeBits_of_masked rfl).trans hlevel

/-- In every mode but console ODT the start keeps what reading the vector keeps, and without a vector nothing stores. -/
theorem startUp_startKept (s : State) (h : s.plat.cfg.powerUpMode ≠ 1#2) :
    StartKept s.readied s.startUp ∧ (s.plat.cfg.powerUpMode ≠ 0#2 → s.startUp.mem = s.mem) := by
  have hfixed (v : Word) (p : BitVec 3) : StartKept s.readied ((s.readied.jump v).setPriority p) :=
    startKept_chained.trans (jump_startKept ..) (writePs_startKept ..)
  obtain hmode | hmode | hmode | hmode := powerUpMode_cases s.plat.cfg.powerUpMode
  · rw [startUp_vector hmode]
    exact ⟨afterVector_startKept (loadPowerUpVector_startKept s.readied), fun hne => absurd hmode hne⟩
  · exact absurd hmode h
  · rw [startUp_fixed hmode]
    exact ⟨hfixed .., fun _ => rfl⟩
  · rw [startUp_boot hmode]
    exact ⟨hfixed .., fun _ => rfl⟩

/-- Every start leaves the pipeline empty (R741, R761). -/
theorem startUp_pipeline (s : State) : s.startUp.flow.stale = none ∧ s.startUp.flow.prefetchFault = true := by
  by_cases hmode : s.plat.cfg.powerUpMode = 1#2
  · rw [startUp_console hmode]
    exact ⟨rfl, rfl⟩
  · obtain ⟨hkept, _⟩ := startUp_startKept s hmode
    exact ⟨hkept.stale, hkept.fault rfl⟩

theorem startUp_mem (h : s.plat.cfg.powerUpMode ≠ 0#2 ∨ s.Undisturbed) : s.startUp.mem = s.mem := by
  by_cases hmode : s.plat.cfg.powerUpMode = 1#2
  · rw [startUp_console hmode]
    rfl
  · obtain ⟨hkept, hmem⟩ := startUp_startKept s hmode
    exact h.elim hmem hkept.mem

/-- Only the entry of console ODT is signalled (61 R690). -/
theorem startUp_gp (s : State) : s.startUp.io.gp =
    s.io.gp ++ (if s.plat.cfg.powerUpMode = 1#2 then [.write 0o234#8] else []) := by
  by_cases hmode : s.plat.cfg.powerUpMode = 1#2
  · rw [startUp_console hmode, if_pos hmode]
    rfl
  · obtain ⟨hkept, _⟩ := startUp_startKept s hmode
    rw [if_neg hmode, List.append_nil]
    exact hkept.gp

theorem startUp_out (h : s.plat.cfg.powerUpMode ≠ 1#2) : s.startUp.io.out = s.io.out := by
  obtain ⟨hkept, _⟩ := startUp_startKept s h
  exact hkept.out

/-- Mode 0 with the vector in plain memory (R743). -/
theorem startUp_vector_plain (h : s.plat.cfg.powerUpMode = 0#2) (hpc : s.PlainAt 0o24#16) (hps : s.PlainAt 0o26#16) :
    s.startUp = s.readied.vectored 0o24#16 0#16 := by
  have hload : loadPowerUpVector s.readied = .ok () (s.readied.vectored 0o24#16 0#16) :=
    loadPowerUpVector_plain (hpc.congr rfl rfl rfl) (hps.congr rfl rfl rfl)
  rw [startUp_vector h, hload]
  rfl

/-! ## The two steps -/

theorem phaseStep_powerUp (h : s.phase = .powerUp) : phaseStep exec s = .next s.powerUp := by
  unfold phaseStep
  rw [h]

theorem phaseStep_awaitPok (h : s.phase = .awaitPok) (hfpa : s.plat.cfg.fpaPresent = false) :
    phaseStep exec s = .next s.awaitPok := by
  unfold phaseStep
  rw [h, hfpa]
  rfl

theorem append_three {α : Type} (l : List α) (a b c : α) : l ++ [a, b, c] = l ++ [a] ++ [b] ++ [c] := by
  simp only [List.append_assoc, List.cons_append, List.nil_append]

theorem powerUp_eq (s : State) : s.powerUp = { s with
    io := { s.io with gp := s.io.gp ++ [.write 0o220#8, .write 0o224#8, .write 0o230#8] }
    phase := .awaitPok } := by
  rw [append_three]
  rfl

theorem awaitPok_of_noPower (h : s.plat.cfg.pok = false) : s.awaitPok = s.gpRead 0o002#8 :=
  if_neg (by rw [State.gpRead_plat, h]; exact Bool.false_ne_true)

/-- The state in which the start by the power-up mode begins: the configuration was read, the bus was reset (R740). -/
def State.busReset (s : State) : State :=
  { s with io := { s.io with gp := s.io.gp ++ [.read 0o002#8, .write 0o014#8, .write 0o214#8] } }

theorem awaitPok_of_power (h : s.plat.cfg.pok = true) : s.awaitPok = s.busReset.startUp := by
  rw [State.busReset, append_three]
  exact if_pos h

end

/-- Settles O7: the first step is `State.powerUp`, the second the poll, then the start of the power-up mode. -/
theorem powerUpStarts : Obligations.PowerUpStarts := by
  rintro s u rfl hinit
  rw [step_of_noInit hinit]
  generalize s.sampleInputs = u
  refine ⟨fun hphase => ?_, fun hphase hfpa hpok => ?_, fun hphase hfpa hpok => ?_⟩
  · rw [phaseStep_powerUp hphase, powerUp_eq]
  · rw [phaseStep_awaitPok hphase hfpa, awaitPok_of_noPower hpok]
    rfl
  · obtain ⟨hstale, hfault⟩ := startUp_pipeline u.busReset
    have hstep : phaseStep exec u = .next u.busReset.startUp := by
      rw [phaseStep_awaitPok hphase hfpa, awaitPok_of_power hpok]
    refine ⟨u.busReset.startUp, hstep, startUp_mem (s := u.busReset), hstale, hfault, startUp_gp u.busReset,
      startUp_out (s := u.busReset), fun hmode hpc hps => ?_, fun hmode => ?_, fun hmode => ?_,
      fun hmode => ?_⟩
    · rw [startUp_vector_plain (s := u.busReset) hmode (hpc.congr rfl rfl rfl) (hps.congr rfl rfl rfl)]
      exact ⟨rfl, rfl, vectorPs_eq_append _ _⟩
    · rw [startUp_console (s := u.busReset) hmode, enterConsole_eq]
      exact ⟨rfl, setPriority_priority _ _, rfl, octal6 u.regs.pc, rfl, rfl, octal6_range _, octal6_value _⟩
    · rw [startUp_fixed (s := u.busReset) hmode]
      exact ⟨rfl, setPriority_priority _ _, rfl⟩
    · rw [startUp_boot (s := u.busReset) hmode]
      exact ⟨rfl, setPriority_priority _ _, rfl⟩

end Sys2Proof.Machine
end
